-- ==== Sys2Proof/Word.lean ====
section
/-! DEFINITION. The word types of the block and the plainest arithmetic on them. -/

namespace Sys2Proof

/-- One byte on the bus: the only access width (20_memory.md R72). -/
abbrev Byte := BitVec 8

/-- A 16-bit bus address (20_memory.md R60). -/
abbrev Address := BitVec 16

/-- A transaction word, 27 bits (30_encoding.md R90). -/
abbrev TransactionWord := BitVec 27

/-- An index into one of the two 8 KiB memories (10_state.md R22, R23). -/
abbrev MemIndex := BitVec 13

end Sys2Proof
end

