-- ==== Sys2Proof/Config.lean ====
section
/-! DEFINITION. What an implementation fixes (00_scope.md R8 to R15): the ROM image, the register map of
30_encoding.md R94, the bit-position parameters of R96, R99 and R100, the open tables; and the free values, which
are constants without a body. -/

namespace Sys2Proof

/-! ### The two numbers the source fixes (00_scope.md R9) -/

/-- Samples per second (R9). It enters the spec only through two integer formulas. -/
def sampleRate : Nat := 44100

/-- Master clock in Hz (R9). It enters the spec only through two integer formulas. -/
def masterClock : Nat := 4000000

/-! ### Open parameters: constants no proof can evaluate -/

/-- `INIT_RAM` (R14, 70_reset_and_hazards.md R232): OPEN, so every result holds for every contents. -/
opaque Config.initRam : MemIndex → Byte

/-- `INIT_VRAM` (R14, R232): OPEN. -/
opaque Config.initVram : MemIndex → Byte

/-- The ROM byte at an index for which the configuration lists none (R8: the image is a parameter). -/
opaque Config.openRomByte : Nat → Byte

/-- How many bytes beyond the first 16384 the ROM of the default configuration has (R8). -/
opaque Config.openRomExtra : Nat

/-- The entries of `NOISE_DIV`, less one, in the default configuration (R10: only known to be positive). -/
opaque Config.openNoiseDiv : Nat → Nat

/-- The entries of `DMA_DIV`, less one, in the default configuration (R11). -/
opaque Config.openDmaDiv : Nat → Nat

/-- `TICK_QUANTUM` of the default configuration (R15). -/
opaque Config.openTickQuantum : Nat

/-! ### The ROM image -/

/-- A ROM image (10_state.md R24). Its size is `extra + 16384`, so an image shorter than one window, which R8 and
60_exceptions.md R211 refuse, is no value of this type. `cells` lists bytes by index; an index it does not list holds
an open byte. -/
structure Rom where
  extra : Nat
  cells : List Host.Cell
deriving DecidableEq, Repr

/-- `ROM_SIZE` (R8). -/
def Rom.size (r : Rom) : Nat := r.extra + 16384

/-! ### The register map (30_encoding.md R94) -/

/-- The thirteen rows of R94's table, in its order. -/
inductive RegBlock where
  | lcd | vdma | sq0 | sq1 | pcm | ctrl | link | timer | tack | aack | sysctl | irqstat | noise
deriving DecidableEq, Repr

/-- R94's table in its order. -/
def RegBlock.all : List RegBlock :=
  [.lcd, .vdma, .sq0, .sq1, .pcm, .ctrl, .link, .timer, .tack, .aack, .sysctl, .irqstat, .noise]

/-- The "count" column of R94: how many addresses a row has. -/
def RegBlock.count : RegBlock → Nat
  | .lcd => 8
  | .vdma => 6
  | .sq0 => 4
  | .sq1 => 4
  | .pcm => 5
  | .ctrl => 1
  | .link => 2
  | .timer => 1
  | .tack => 1
  | .aack => 1
  | .sysctl => 1
  | .irqstat => 1
  | .noise => 3

/-- The configuration of the block: every parameter of R8 to R13 and R15 that is plain data. No operation writes it and
RESET keeps it (70_reset_and_hazards.md R231). -/
structure Config where
  /-- The ROM image (R8). -/
  rom : Rom
  /-- The thirteen register addresses (R12, R94). -/
  aLcd : Address
  aVdma : Address
  aSq0 : Address
  aSq1 : Address
  aPcm : Address
  aCtrl : Address
  aLink : Address
  aTimer : Address
  aTack : Address
  aAack : Address
  aSysctl : Address
  aIrqstat : Address
  aNoise : Address
  /-- `SYSCTL_IRQ_MASK` (R13, R96). -/
  sysctlIrqMask : Byte
  /-- `SYSCTL_PRESC_BIT` (R13, R96). -/
  sysctlPrescBit : Fin 8
  /-- The five flag positions of noise register 2 (R99). -/
  noiseEnBit : Fin 8
  noiseLeftBit : Fin 8
  noiseRightBit : Fin 8
  noiseContBit : Fin 8
  noiseM15Bit : Fin 8
  /-- The four field positions of PCM register 3 (R100). -/
  pcmBankLsb : Fin 6
  pcmLeftBit : Fin 8
  pcmRightBit : Fin 8
  pcmFreqLsb : Fin 7
  /-- `NOISE_DIV[0..15]` (R10). -/
  noiseDiv : Vector Nat 16
  /-- `DMA_DIV[0..3]` (R11): stored, and read by no rule (44_sound_sample.md R197). -/
  dmaDiv : Vector Nat 4
  /-- `TICK_QUANTUM` (R15): read by no rule. -/
  tickQuantum : Nat
deriving DecidableEq, Repr

/-- The address parameter of a row of R94. -/
def Config.base (c : Config) : RegBlock → Address
  | .lcd => c.aLcd
  | .vdma => c.aVdma
  | .sq0 => c.aSq0
  | .sq1 => c.aSq1
  | .pcm => c.aPcm
  | .ctrl => c.aCtrl
  | .link => c.aLink
  | .timer => c.aTimer
  | .tack => c.aTack
  | .aack => c.aAack
  | .sysctl => c.aSysctl
  | .irqstat => c.aIrqstat
  | .noise => c.aNoise

end Sys2Proof
end

