-- ==== Sys2Proof/Syntax.lean ====
section
/-! DEFINITION. The seven operations (00_scope.md R6), the rows of spec/opcode_table.json they refine into by address,
one constructor of `Instr` per row, and the text notation of 30_encoding.md R103 and R104. -/

namespace Sys2Proof

/-- The seven operations applied to the block (R6, 30_encoding.md R91). -/
inductive Operation where
  | read (a : Address)
  | write (a : Address) (v : Byte)
  | tick
  | frame
  | sample
  | takeIrq
  | reset
deriving DecidableEq, Repr

/-- The rows of spec/opcode_table.json. An operand `a` holds the row's variable address bits (the offset of the address
in the row's window or register block), `v` the data byte. -/
inductive Instr where
  -- READ rows (40_bus_read.md R111 to R122)
  | rdRam (a : BitVec 13)
  | rdLcd (a : BitVec 3)
  | rdCtrl
  | rdTimer
  | rdTack
  | rdAack
  | rdIrqstat
  | rdRegUnknown (a : BitVec 12)
  | rdUnmapped3 (a : BitVec 12)
  | rdVram (a : BitVec 13)
  | rdUnmapped6 (a : BitVec 13)
  | rdRomBank (a : BitVec 14)
  | rdRomFixed (a : BitVec 14)
  -- WRITE rows (41_bus_write.md R131 to R140, 43_sound_registers.md R167 to R178)
  | wrRam (a : BitVec 13) (v : Byte)
  | wrLcd (a : BitVec 3) (v : Byte)
  | wrVdmaA (a : BitVec 2) (v : Byte)
  | wrVdmaB (a : BitVec 1) (v : Byte)
  | wrSq0R0 (v : Byte)
  | wrSq0R1 (v : Byte)
  | wrSq0R2 (v : Byte)
  | wrSq0R3 (v : Byte)
  | wrSq1R0 (v : Byte)
  | wrSq1R1 (v : Byte)
  | wrSq1R2 (v : Byte)
  | wrSq1R3 (v : Byte)
  | wrPcmR0 (v : Byte)
  | wrPcmR1 (v : Byte)
  | wrPcmR2 (v : Byte)
  | wrPcmR3 (v : Byte)
  | wrPcmR4 (v : Byte)
  | wrLink0 (v : Byte)
  | wrLink1 (v : Byte)
  | wrTimer (v : Byte)
  | wrSysctl (v : Byte)
  | wrNoiseR0 (v : Byte)
  | wrNoiseR1 (v : Byte)
  | wrNoiseR2 (v : Byte)
  | wrRegOther (a : BitVec 12) (v : Byte)
  | wrUnmapped3 (a : BitVec 12) (v : Byte)
  | wrVram (a : BitVec 13) (v : Byte)
  | wrUnmapped6 (a : BitVec 13) (v : Byte)
  | wrRomBank (a : BitVec 14) (v : Byte)
  | wrRomFixed (a : BitVec 14) (v : Byte)
  -- operations without address
  | tick
  | frame
  | sample
  | takeIrq
  | reset
deriving DecidableEq, Repr

/-- A line of the written form (30_encoding.md R103, R104): an operation, one of the pseudo-operations, or the
statement that the input `K` holds a value from that line on. -/
inductive ScriptLine where
  | op (o : Operation)
  /-- `TICK n` -/
  | ticks (n : Nat)
  /-- `SAMPLE n` -/
  | samples (n : Nat)
  /-- `WR16 a, w`: low byte first (20_memory.md R70) -/
  | write16 (a : Address) (w : BitVec 16)
  /-- `KEYS k` -/
  | keys (k : Byte)
deriving DecidableEq, Repr

end Sys2Proof
end

