-- ==== Sys2Proof/WellFormed.lean ====
section
/-! DEFINITION. The checks: a register map that meets the constraints of 00_scope.md R12, a configuration that meets R8
and R10, and an instruction whose operands its row admits (the two catch-all rows take only what no other row takes,
30_encoding.md R95). -/

namespace Sys2Proof

/-- `a` is one of the addresses of a row of R94. -/
def Config.claims (c : Config) (b : RegBlock) (a : Address) : Bool :=
  decide ((c.base b).toNat ≤ a.toNat) && decide (a.toNat < (c.base b).toNat + b.count)

/-- Every register address lies in 0x2000–0x2FFF (R12). -/
def Config.inWindow (c : Config) (b : RegBlock) : Bool :=
  decide (0x2000 ≤ (c.base b).toNat) && decide ((c.base b).toNat + b.count ≤ 0x3000)

/-- Two rows of R94 share no address. -/
def Config.disjoint (c : Config) (b d : RegBlock) : Bool :=
  decide ((c.base b).toNat + b.count ≤ (c.base d).toNat) || decide ((c.base d).toNat + d.count ≤ (c.base b).toNat)

/-- The constraints R12 puts on the register addresses: inside the window, no two handlers share an address, and the
LCD block starts at a multiple of 4 (20_memory.md R77). -/
def Config.legalMap (c : Config) : Bool :=
  RegBlock.all.all c.inWindow
    && RegBlock.all.all (fun b => RegBlock.all.all fun d => b == d || c.disjoint b d)
    && decide (c.aLcd.toNat % 4 = 0)

/-- The cells of a ROM image rise strictly and lie below its size. -/
def Rom.wf (r : Rom) : Bool :=
  decide ((r.cells.map Prod.fst).Pairwise (· < ·)) && r.cells.all (fun p => decide (p.1 < r.size))

/-- A legal configuration: a legal register map, a well-formed ROM (its size is at least 16384 by its type, R8), and
divisor tables of positive integers (R10, R11). -/
def Config.legal (c : Config) : Bool :=
  c.legalMap && c.rom.wf && c.noiseDiv.toList.all (fun d => decide (0 < d)) && c.dmaDiv.toList.all (fun d => decide (0 < d))

/-- A register of R94 that has a read handler (the "dir" column). -/
def RegBlock.readable : RegBlock → Bool
  | .lcd | .ctrl | .timer | .tack | .aack | .irqstat => true
  | .vdma | .sq0 | .sq1 | .pcm | .link | .sysctl | .noise => false

/-- A register of R94 that has a write handler (the "dir" column). -/
def RegBlock.writable : RegBlock → Bool
  | .lcd | .vdma | .sq0 | .sq1 | .pcm | .link | .timer | .sysctl | .noise => true
  | .ctrl | .tack | .aack | .irqstat => false

/-- The bus address of an offset in the register window (20_memory.md R62). -/
def regWindowAddress (off : BitVec 12) : Address := 0x2#4 ++ off

/-- The row admits these operands. Widths are in the types; the catch-all rows RD_REG_UNKNOWN and WR_REG_OTHER "match
only if no earlier row matched" (30_encoding.md R95, 40_bus_read.md R118, 41_bus_write.md R139). -/
def Instr.wellFormed (c : Config) : Instr → Bool
  | .rdRegUnknown a => RegBlock.all.all fun b => !(b.readable && c.claims b (regWindowAddress a))
  | .wrRegOther a _ => RegBlock.all.all fun b => !(b.writable && c.claims b (regWindowAddress a))
  | .rdRam _ | .rdLcd _ | .rdCtrl | .rdTimer | .rdTack | .rdAack | .rdIrqstat => true
  | .rdUnmapped3 _ | .rdVram _ | .rdUnmapped6 _ | .rdRomBank _ | .rdRomFixed _ => true
  | .wrRam _ _ | .wrLcd _ _ | .wrVdmaA _ _ | .wrVdmaB _ _ => true
  | .wrSq0R0 _ | .wrSq0R1 _ | .wrSq0R2 _ | .wrSq0R3 _ => true
  | .wrSq1R0 _ | .wrSq1R1 _ | .wrSq1R2 _ | .wrSq1R3 _ => true
  | .wrPcmR0 _ | .wrPcmR1 _ | .wrPcmR2 _ | .wrPcmR3 _ | .wrPcmR4 _ => true
  | .wrLink0 _ | .wrLink1 _ | .wrTimer _ | .wrSysctl _ => true
  | .wrNoiseR0 _ | .wrNoiseR1 _ | .wrNoiseR2 _ => true
  | .wrUnmapped3 _ _ | .wrVram _ _ | .wrUnmapped6 _ _ | .wrRomBank _ _ | .wrRomFixed _ _ => true
  | .tick | .frame | .sample | .takeIrq | .reset => true

end Sys2Proof
end

