-- ==== Sys2Proof/Decode.lean ====
section
/-! DEFINITION. The decoder of the transaction word (30_encoding.md R90 to R95), total on every word and rejecting by
name; after it the encoder, written from the same tables; the expansion of the written form (R103, R104); and the
default configuration, whose register map the opcode table is written for. -/

namespace Sys2Proof

/-! ### The default configuration -/

/-- The configuration with the defaults of R94, R96, R99 and R100 (PRESUMED: the spec takes them from general
knowledge of the console; log entries 3 and 4) and every parameter without a default left open (log entries 7, 8). -/
def Config.default : Config where
  rom := { extra := Config.openRomExtra, cells := [] }
  aLcd := 0x2000
  aVdma := 0x2008
  aSq0 := 0x2010
  aSq1 := 0x2014
  aPcm := 0x2018
  aCtrl := 0x2020
  aLink := 0x2021
  aTimer := 0x2023
  aTack := 0x2024
  aAack := 0x2025
  aSysctl := 0x2026
  aIrqstat := 0x2027
  aNoise := 0x2028
  sysctlIrqMask := 0x03
  sysctlPrescBit := 4
  noiseEnBit := 4
  noiseLeftBit := 3
  noiseRightBit := 2
  noiseContBit := 1
  noiseM15Bit := 0
  pcmBankLsb := 4
  pcmLeftBit := 3
  pcmRightBit := 2
  pcmFreqLsb := 0
  noiseDiv := Vector.ofFn fun i => Config.openNoiseDiv i.val + 1
  dmaDiv := Vector.ofFn fun i => Config.openDmaDiv i.val + 1
  tickQuantum := Config.openTickQuantum

/-! ### Decoding -/

/-- Why a word is no operation. -/
inductive DecodeError where
  /-- `kind = 0b111` "spells no operation: a decoder refuses it" (R92). -/
  | reservedKind
  /-- The number does not fit the one length of a word, 27 bits (R90). -/
  | notAWord
deriving DecidableEq, Repr

/-- The `kind` field, bits 26:24 (R90). -/
def wordKind (w : TransactionWord) : BitVec 3 := w.extractLsb' 24 3

/-- The `addr` field, bits 23:8 (R90). -/
def wordAddr (w : TransactionWord) : Address := w.extractLsb' 8 16

/-- The `data` field, bits 7:0 (R90). -/
def wordData (w : TransactionWord) : Byte := w.extractLsb' 0 8

/-- Which operation a word writes down (R91). Fields an operation does not use are ignored (R92). -/
def decodeOperation (w : TransactionWord) : Except DecodeError Operation :=
  if wordKind w = 0b000#3 then .ok (.read (wordAddr w))
  else if wordKind w = 0b001#3 then .ok (.write (wordAddr w) (wordData w))
  else if wordKind w = 0b010#3 then .ok .tick
  else if wordKind w = 0b011#3 then .ok .frame
  else if wordKind w = 0b100#3 then .ok .sample
  else if wordKind w = 0b101#3 then .ok .takeIrq
  else if wordKind w = 0b110#3 then .ok .reset
  else .error .reservedKind

/-- `a` is one of the addresses of a row of R94: exact match on all 16 bits (20_memory.md R62). -/
def Config.hits (c : Config) (b : RegBlock) (a : Address) : Bool := c.claims b a

/-- "the channel/register index derived from the address offset" (R94). -/
def Config.offset (c : Config) (b : RegBlock) (a : Address) : Nat := a.toNat - (c.base b).toNat

/-- READ inside the register window, in the order of R94's table (R95, 40_bus_read.md R110). -/
def decodeReadRegister (c : Config) (a : Address) : Instr :=
  if c.hits .lcd a then .rdLcd (BitVec.ofNat 3 (c.offset .lcd a))
  else if c.hits .ctrl a then .rdCtrl
  else if c.hits .timer a then .rdTimer
  else if c.hits .tack a then .rdTack
  else if c.hits .aack a then .rdAack
  else if c.hits .irqstat a then .rdIrqstat
  else .rdRegUnknown (a.setWidth 12)

/-- The row of `READ a`: the region of the address (20_memory.md R69), then the register (R95). -/
def decodeRead (c : Config) (a : Address) : Instr :=
  if a.toNat ≤ 0x1FFF then .rdRam (a.setWidth 13)
  else if a.toNat ≤ 0x2FFF then decodeReadRegister c a
  else if a.toNat ≤ 0x3FFF then .rdUnmapped3 (a.setWidth 12)
  else if a.toNat ≤ 0x5FFF then .rdVram (a.setWidth 13)
  else if a.toNat ≤ 0x7FFF then .rdUnmapped6 (a.setWidth 13)
  else if a.toNat ≤ 0xBFFF then .rdRomBank (a.setWidth 14)
  else .rdRomFixed (a.setWidth 14)

/-- The four registers of square channel 0 (43_sound_registers.md R165). -/
def decodeSquare0 (r : Nat) (v : Byte) : Instr :=
  match r with
  | 0 => .wrSq0R0 v
  | 1 => .wrSq0R1 v
  | 2 => .wrSq0R2 v
  | _ => .wrSq0R3 v

/-- The four registers of square channel 1 (R165). -/
def decodeSquare1 (r : Nat) (v : Byte) : Instr :=
  match r with
  | 0 => .wrSq1R0 v
  | 1 => .wrSq1R1 v
  | 2 => .wrSq1R2 v
  | _ => .wrSq1R3 v

/-- The five registers of the PCM channel (R165). -/
def decodePcm (r : Nat) (v : Byte) : Instr :=
  match r with
  | 0 => .wrPcmR0 v
  | 1 => .wrPcmR1 v
  | 2 => .wrPcmR2 v
  | 3 => .wrPcmR3 v
  | _ => .wrPcmR4 v

/-- The three registers of the noise channel (R165). -/
def decodeNoise (r : Nat) (v : Byte) : Instr :=
  match r with
  | 0 => .wrNoiseR0 v
  | 1 => .wrNoiseR1 v
  | _ => .wrNoiseR2 v

/-- The reserved video DMA range: its first four addresses are one row of the table, the last two another. -/
def decodeVdma (r : Nat) (v : Byte) : Instr :=
  if r < 4 then .wrVdmaA (BitVec.ofNat 2 r) v else .wrVdmaB (BitVec.ofNat 1 (r - 4)) v

/-- The reserved link range. -/
def decodeLink (r : Nat) (v : Byte) : Instr :=
  match r with
  | 0 => .wrLink0 v
  | _ => .wrLink1 v

/-- WRITE inside the register window, in the order of R94's table (R95, 41_bus_write.md R130). -/
def decodeWriteRegister (c : Config) (a : Address) (v : Byte) : Instr :=
  if c.hits .lcd a then .wrLcd (BitVec.ofNat 3 (c.offset .lcd a)) v
  else if c.hits .vdma a then decodeVdma (c.offset .vdma a) v
  else if c.hits .sq0 a then decodeSquare0 (c.offset .sq0 a) v
  else if c.hits .sq1 a then decodeSquare1 (c.offset .sq1 a) v
  else if c.hits .pcm a then decodePcm (c.offset .pcm a) v
  else if c.hits .link a then decodeLink (c.offset .link a) v
  else if c.hits .timer a then .wrTimer v
  else if c.hits .sysctl a then .wrSysctl v
  else if c.hits .noise a then decodeNoise (c.offset .noise a) v
  else .wrRegOther (a.setWidth 12) v

/-- The row of `WRITE a, v` (20_memory.md R69, R95). -/
def decodeWrite (c : Config) (a : Address) (v : Byte) : Instr :=
  if a.toNat ≤ 0x1FFF then .wrRam (a.setWidth 13) v
  else if a.toNat ≤ 0x2FFF then decodeWriteRegister c a v
  else if a.toNat ≤ 0x3FFF then .wrUnmapped3 (a.setWidth 12) v
  else if a.toNat ≤ 0x5FFF then .wrVram (a.setWidth 13) v
  else if a.toNat ≤ 0x7FFF then .wrUnmapped6 (a.setWidth 13) v
  else if a.toNat ≤ 0xBFFF then .wrRomBank (a.setWidth 14) v
  else .wrRomFixed (a.setWidth 14) v

/-- The row of spec/opcode_table.json an operation falls in under a configuration (R95). -/
def decodeRow (c : Config) : Operation → Instr
  | .read a => decodeRead c a
  | .write a v => decodeWrite c a v
  | .tick => .tick
  | .frame => .frame
  | .sample => .sample
  | .takeIrq => .takeIrq
  | .reset => .reset

/-- Decode a transaction word (R95). -/
def decode (c : Config) (w : TransactionWord) : Except DecodeError Instr :=
  match decodeOperation w with
  | .ok o => .ok (decodeRow c o)
  | .error e => .error e

/-- Decode a number as a word: refused by name when it has a bit above bit 26 (R90, "one length (27 bits)"). -/
def decodeNumber (c : Config) (n : Nat) : Except DecodeError Instr :=
  if n < 2 ^ 27 then decode c (BitVec.ofNat 27 n) else .error .notAWord

/-- The instruction the decoder reads, under the default register map, from an instruction whose low `nbits` bits are
those of `w`, every bit above being 0. -/
def decodeTableWord (nbits w : Nat) : Option Instr :=
  match decodeNumber Config.default (w % 2 ^ nbits) with
  | .ok i => some i
  | .error _ => none

/-! ### Encoding -/

/-- The word `kind : addr : data` (R90). -/
def makeWord (kind : BitVec 3) (addr : Address) (data : Byte) : TransactionWord := kind ++ addr ++ data

/-- The canonical word of an operation: fields it does not use are zero (R91, R92). -/
def Operation.word : Operation → TransactionWord
  | .read a => makeWord 0b000 a 0
  | .write a v => makeWord 0b001 a v
  | .tick => makeWord 0b010 0 0
  | .frame => makeWord 0b011 0 0
  | .sample => makeWord 0b100 0 0
  | .takeIrq => makeWord 0b101 0 0
  | .reset => makeWord 0b110 0 0

/-- The address `r` places into a register block of R94. -/
def Config.registerAt (c : Config) (b : RegBlock) (r : Nat) : Address := c.base b + BitVec.ofNat 16 r

/-- The operation a row stands for, its address rebuilt from the row's fixed and variable address bits. -/
def Instr.operation (c : Config) : Instr → Operation
  | .rdRam a => .read (0b000#3 ++ a)
  | .rdLcd a => .read (c.registerAt .lcd a.toNat)
  | .rdCtrl => .read (c.registerAt .ctrl 0)
  | .rdTimer => .read (c.registerAt .timer 0)
  | .rdTack => .read (c.registerAt .tack 0)
  | .rdAack => .read (c.registerAt .aack 0)
  | .rdIrqstat => .read (c.registerAt .irqstat 0)
  | .rdRegUnknown a => .read (0x2#4 ++ a)
  | .rdUnmapped3 a => .read (0x3#4 ++ a)
  | .rdVram a => .read (0b010#3 ++ a)
  | .rdUnmapped6 a => .read (0b011#3 ++ a)
  | .rdRomBank a => .read (0b10#2 ++ a)
  | .rdRomFixed a => .read (0b11#2 ++ a)
  | .wrRam a v => .write (0b000#3 ++ a) v
  | .wrLcd a v => .write (c.registerAt .lcd a.toNat) v
  | .wrVdmaA a v => .write (c.registerAt .vdma a.toNat) v
  | .wrVdmaB a v => .write (c.registerAt .vdma (4 + a.toNat)) v
  | .wrSq0R0 v => .write (c.registerAt .sq0 0) v
  | .wrSq0R1 v => .write (c.registerAt .sq0 1) v
  | .wrSq0R2 v => .write (c.registerAt .sq0 2) v
  | .wrSq0R3 v => .write (c.registerAt .sq0 3) v
  | .wrSq1R0 v => .write (c.registerAt .sq1 0) v
  | .wrSq1R1 v => .write (c.registerAt .sq1 1) v
  | .wrSq1R2 v => .write (c.registerAt .sq1 2) v
  | .wrSq1R3 v => .write (c.registerAt .sq1 3) v
  | .wrPcmR0 v => .write (c.registerAt .pcm 0) v
  | .wrPcmR1 v => .write (c.registerAt .pcm 1) v
  | .wrPcmR2 v => .write (c.registerAt .pcm 2) v
  | .wrPcmR3 v => .write (c.registerAt .pcm 3) v
  | .wrPcmR4 v => .write (c.registerAt .pcm 4) v
  | .wrLink0 v => .write (c.registerAt .link 0) v
  | .wrLink1 v => .write (c.registerAt .link 1) v
  | .wrTimer v => .write (c.registerAt .timer 0) v
  | .wrSysctl v => .write (c.registerAt .sysctl 0) v
  | .wrNoiseR0 v => .write (c.registerAt .noise 0) v
  | .wrNoiseR1 v => .write (c.registerAt .noise 1) v
  | .wrNoiseR2 v => .write (c.registerAt .noise 2) v
  | .wrRegOther a v => .write (0x2#4 ++ a) v
  | .wrUnmapped3 a v => .write (0x3#4 ++ a) v
  | .wrVram a v => .write (0b010#3 ++ a) v
  | .wrUnmapped6 a v => .write (0b011#3 ++ a) v
  | .wrRomBank a v => .write (0b10#2 ++ a) v
  | .wrRomFixed a v => .write (0b11#2 ++ a) v
  | .tick => .tick
  | .frame => .frame
  | .sample => .sample
  | .takeIrq => .takeIrq
  | .reset => .reset

/-- The canonical transaction word of an instruction under a configuration. -/
def encode (c : Config) (i : Instr) : TransactionWord := (i.operation c).word

/-- The word of the same operation with the fields it does not use set to zero (R92). -/
def canonicalWord (w : TransactionWord) : TransactionWord :=
  if wordKind w = 0b000#3 then makeWord 0b000 (wordAddr w) 0
  else if wordKind w = 0b001#3 then w
  else makeWord (wordKind w) 0 0

/-! ### The written form (R103, R104) -/

/-- The operations a line of the written form stands for, with the level of the input `K` at each; `k` is the level
before the line. DESIGN CHOICE: the second address of `WR16 a, w` is `a + 1` mod 65536, so `WR16 0xFFFF` writes its high
byte to 0x0000, which R104 does not settle (log entry 20). -/
def ScriptLine.expand (k : Byte) : ScriptLine → List (Operation × Byte)
  | .op o => [(o, k)]
  | .ticks n => List.replicate n (.tick, k)
  | .samples n => List.replicate n (.sample, k)
  | .write16 a w => [(.write a (w.extractLsb' 0 8), k), (.write (a + 1) (w.extractLsb' 8 8), k)]
  | .keys _ => []

/-- The level of the input `K` after a line. -/
def ScriptLine.keysAfter (k : Byte) : ScriptLine → Byte
  | .keys k' => k'
  | .op _ => k
  | .ticks _ => k
  | .samples _ => k
  | .write16 _ _ => k

/-- The operations of a script, in order, from the level `k` of the input on. -/
def expandScript : Byte → List ScriptLine → List (Operation × Byte)
  | _, [] => []
  | k, l :: ls => l.expand k ++ expandScript (l.keysAfter k) ls

end Sys2Proof
end

