-- ==== Sys2Proof/Machine/State.lean ====
section
/-! DEFINITION. Everything the spec gives the block (10_state.md), as plain data; the reasons a step can stop; the
state after reset (70_reset_and_hazards.md R230). -/

namespace Sys2Proof.Machine

/-- Contents of one 8 KiB memory since RESET: the bytes written, as (index, byte) cells whose indices rise strictly. An
index that is not listed is a byte nothing has written (70_reset_and_hazards.md R232 (b); log entry 6). -/
abbrev Memory := List Host.Cell

/-- The one fault of the block (60_exceptions.md R210, R212). It never ends a run: "the block accepts the next operation
normally", so the meanings that raise it answer a next state that differs only in `State.out`, where the fault is
reported to the agent that applied the operation. No meaning answers `Host.Outcome.fault`. -/
inductive Fault where
  /-- Raised by RD_ROM_BANK, WR_PCM_R4 and SAMPLE when the byte read has index `index` at or beyond `ROM_SIZE` (R68).
  Safe: the spec's own reading of a case its source leaves open (92_eei_decisions.md D13; log entry 1). -/
  | romIndexOutOfRange (index : Nat)
deriving DecidableEq, Repr

/-- Why there is no operation to apply. -/
inductive Refusal where
  /-- An instruction that has no meaning yet. No arm of `exec` answers it: every row of the table has its meaning. -/
  | notModelled (mnemonic : String)
  /-- Answered by `step` for a pending word with `kind = 0b111`, which "spells no operation" (30_encoding.md R92).
  Safe: the hardware never sees a word. -/
  | reservedKind
deriving DecidableEq, Repr

/-- What an operation returns to the agent that applied it (00_scope.md R6, 30_encoding.md R91). -/
inductive Response where
  /-- TICK and RESET return nothing. -/
  | none
  /-- READ: the byte and the diagnostic bit. -/
  | byte (value : Byte) (diag : Bool)
  /-- WRITE: the diagnostic bit. -/
  | ack (diag : Bool)
  /-- FRAME: the NMI request bit. -/
  | nmi (request : Bool)
  /-- SAMPLE: the signed 16-bit sample and the diagnostic bit of a PCM fetch. -/
  | sample (value : BitVec 16) (diag : Bool)
  /-- TAKEIRQ: the IRQ request bit. -/
  | irq (request : Bool)
  /-- The operation faulted and returned no value (R210). -/
  | faulted (f : Fault)
deriving DecidableEq, Repr

/-- The LCD register file, "horizontal size, vertical size, X-scroll, Y-scroll" (10_state.md R25). -/
structure Lcd where
  hsize : Byte
  vsize : Byte
  xscroll : Byte
  yscroll : Byte
deriving DecidableEq, Repr

/-- The timer (10_state.md R28 to R31). -/
structure Timer where
  /-- `T.en`, the enabled flag (R28). -/
  en : Bool
  /-- `T.slow`, the prescaler select: divisor 16384 when set, 256 when clear (R29). -/
  slow : Bool
  /-- `T.cnt`, the 8-bit down counter (R30). -/
  cnt : Byte
  /-- `T.acc`, the sub-cycle accumulator (R31). -/
  acc : Nat
deriving DecidableEq, Repr

/-- The two square channels (10_state.md section 4). -/
inductive SquareId where
  | c0
  | c1
deriving DecidableEq, Repr

/-- One square channel (10_state.md R33 to R37). -/
structure Square where
  plo : Byte
  phi : BitVec 3
  size : Nat
  pos : Nat
  en : Bool
  duty : BitVec 2
  vol : BitVec 4
  len : Nat
deriving DecidableEq, Repr

/-- The noise channel (10_state.md R38 to R42). -/
structure Noise where
  freq : BitVec 4
  vol : BitVec 4
  len : Byte
  en : Bool
  left : Bool
  right : Bool
  cont : Bool
  m15 : Bool
  lfsr : BitVec 15
  pos : Nat
deriving DecidableEq, Repr

/-- The PCM (DMA) channel (10_state.md R43 to R47). -/
structure Pcm where
  alo : Byte
  ahi : Byte
  len : Byte
  bank : BitVec 3
  left : Bool
  right : Bool
  freq : BitVec 2
  trig : Bool
  cur : Address
  byte : Byte
  sel : Bool
  played : Nat
deriving DecidableEq, Repr

/-- An operation the environment applies: its transaction word and the button levels `K` that hold at it (30_encoding.md
R90, 10_state.md R48). One operation samples `K` at most once, so one level per operation loses nothing. -/
structure Request where
  word : TransactionWord
  keys : Byte
deriving DecidableEq, Repr

/-- The state of the block (10_state.md R22 to R47), with four fields of the model's own: the configuration `cfg`, the
input port `keys`, the schedule `pending` and the last result `out` (log entries 2, 9, 10, 13). -/
structure State where
  /-- The configuration (00_scope.md R8 to R15). No operation writes it. -/
  cfg : Config
  /-- `RAM` (R22). -/
  ram : Memory
  /-- `VRAM` (R23). -/
  vram : Memory
  /-- `LCD[0..3]` (R25). -/
  lcd : Lcd
  /-- `BANK` (R26). -/
  bank : BitVec 3
  /-- `NMI_EN` (R27). -/
  nmiEn : Bool
  /-- `T` (R28 to R31). -/
  timer : Timer
  /-- `IRQ_PEND` (R32). -/
  irqPend : Bool
  /-- `SQ[0]` (R33 to R37). -/
  sq0 : Square
  /-- `SQ[1]` (R33 to R37). -/
  sq1 : Square
  /-- `N` (R38 to R42). -/
  noise : Noise
  /-- `D` (R43 to R47). -/
  pcm : Pcm
  /-- The input `K[7:0]` (R48), bit i set while button i is held. -/
  keys : Byte
  /-- The operations not yet applied, the next one first (20_memory.md R80, 92_eei_decisions.md D32). -/
  pending : List Request
  /-- What the last operation returned. -/
  out : Response
deriving DecidableEq, Repr

/-! ### Updates of one field -/

/-- `s` with another RAM. -/
def State.withRam (s : State) (x : Memory) : State := { s with ram := x }

/-- `s` with another VRAM. -/
def State.withVram (s : State) (x : Memory) : State := { s with vram := x }

/-- `s` with another LCD register file. -/
def State.withLcd (s : State) (x : Lcd) : State := { s with lcd := x }

/-- `s` with another `BANK`. -/
def State.withBank (s : State) (x : BitVec 3) : State := { s with bank := x }

/-- `s` with another `NMI_EN`. -/
def State.withNmiEn (s : State) (x : Bool) : State := { s with nmiEn := x }

/-- `s` with another timer. -/
def State.withTimer (s : State) (x : Timer) : State := { s with timer := x }

/-- `s` with another `IRQ_PEND`. -/
def State.withIrqPend (s : State) (x : Bool) : State := { s with irqPend := x }

/-- `s` with another `SQ[0]`. -/
def State.withSq0 (s : State) (x : Square) : State := { s with sq0 := x }

/-- `s` with another `SQ[1]`. -/
def State.withSq1 (s : State) (x : Square) : State := { s with sq1 := x }

/-- `s` with another noise channel. -/
def State.withNoise (s : State) (x : Noise) : State := { s with noise := x }

/-- `s` with another PCM channel. -/
def State.withPcm (s : State) (x : Pcm) : State := { s with pcm := x }

/-- `s` with other button levels. -/
def State.withKeys (s : State) (x : Byte) : State := { s with keys := x }

/-- `s` with another schedule. -/
def State.withPending (s : State) (x : List Request) : State := { s with pending := x }

/-- `s` with another result. -/
def State.withOut (s : State) (x : Response) : State := { s with out := x }

/-! ### Reset (70_reset_and_hazards.md R230) -/

/-- A square channel after RESET (R230). -/
def Square.reset : Square :=
  { plo := 0, phi := 0, size := 0, pos := 0, en := false, duty := 0, vol := 0, len := 0 }

/-- The noise channel after RESET: all zero but the LFSR, which holds the all-ones seed of the 7-bit mode (R230). -/
def Noise.reset : Noise :=
  { freq := 0, vol := 0, len := 0, en := false, left := false, right := false, cont := false, m15 := false,
    lfsr := 0x007F, pos := 0 }

/-- The PCM channel after RESET (R230). -/
def Pcm.reset : Pcm :=
  { alo := 0, ahi := 0, len := 0, bank := 0, left := false, right := false, freq := 0, trig := false, cur := 0,
    byte := 0, sel := false, played := 0 }

/-- The state after RESET (R230), under the default configuration, with no operation pending, no button held and no
result yet (the last three are the model's own fields: DESIGN CHOICE, log entries 9, 10, 13). -/
def State.reset : State where
  cfg := Config.default
  ram := []
  vram := []
  lcd := { hsize := 0, vsize := 0, xscroll := 0, yscroll := 0 }
  bank := 0
  nmiEn := false
  timer := { en := false, slow := false, cnt := 0, acc := 0 }
  irqPend := false
  sq0 := Square.reset
  sq1 := Square.reset
  noise := Noise.reset
  pcm := Pcm.reset
  keys := 0
  pending := []
  out := .none

/-! ### What a shared operation that reads the bus answers -/

/-- A value with its diagnostic bit and the state after, or the fault of 60_exceptions.md R210. -/
inductive Answer (α : Type) where
  | done (value : α) (diag : Bool) (after : State)
  | fault (f : Fault)
deriving DecidableEq, Repr

end Sys2Proof.Machine
end

