-- ==== Sys2Proof/Machine/Operands.lean ====
section
/-! DEFINITION. Every operand form: the fields of the register values (30_encoding.md R96 to R100) and the quantities
the rules compute from register contents (ROM indices, period, waveform size, noise period, byte count). -/

namespace Sys2Proof.Machine

/-! ### System-control register (R96) -/

/-- `v[7:5]`, bank select. -/
def sysctlBank (v : Byte) : BitVec 3 := v.extractLsb' 5 3

/-- `v[0]`, NMI enable. -/
def sysctlNmi (v : Byte) : Bool := v.getLsbD 0

/-- `v[SYSCTL_PRESC_BIT]`, prescaler select: 1 is the divisor 16384. -/
def sysctlSlow (c : Config) (v : Byte) : Bool := v.getLsbD c.sysctlPrescBit.val

/-! ### Square registers (R97) -/

/-- `v[2:0]`, period bits 10:8. -/
def squarePhi (v : Byte) : BitVec 3 := v.extractLsb' 0 3

/-- `v[6]`, enabled flag. -/
def squareEn (v : Byte) : Bool := v.getLsbD 6

/-- `v[5:4]`, duty selector. -/
def squareDuty (v : Byte) : BitVec 2 := v.extractLsb' 4 2

/-- `v[3:0]`, volume. -/
def squareVol (v : Byte) : BitVec 4 := v.extractLsb' 0 4

/-- The length counter is loaded with `v + 1`, a 9-bit value. -/
def squareLen (v : Byte) : Nat := v.toNat + 1

/-! ### Noise registers (R98, R99) -/

/-- `v[7:4]`, frequency code. -/
def noiseFreq (v : Byte) : BitVec 4 := v.extractLsb' 4 4

/-- `v[3:0]`, volume. -/
def noiseVol (v : Byte) : BitVec 4 := v.extractLsb' 0 4

/-- `v[NOISE_EN_BIT]`. -/
def noiseEn (c : Config) (v : Byte) : Bool := v.getLsbD c.noiseEnBit.val

/-- `v[NOISE_LEFT_BIT]`. -/
def noiseLeft (c : Config) (v : Byte) : Bool := v.getLsbD c.noiseLeftBit.val

/-- `v[NOISE_RIGHT_BIT]`. -/
def noiseRight (c : Config) (v : Byte) : Bool := v.getLsbD c.noiseRightBit.val

/-- `v[NOISE_CONT_BIT]`. -/
def noiseCont (c : Config) (v : Byte) : Bool := v.getLsbD c.noiseContBit.val

/-- `v[NOISE_M15_BIT]`: 1 is the 15-bit LFSR. -/
def noiseM15 (c : Config) (v : Byte) : Bool := v.getLsbD c.noiseM15Bit.val

/-! ### PCM registers (R100) -/

/-- `v[PCM_BANK_LSB + 2 : PCM_BANK_LSB]`. -/
def pcmBank (c : Config) (v : Byte) : BitVec 3 := v.extractLsb' c.pcmBankLsb.val 3

/-- `v[PCM_LEFT_BIT]`. -/
def pcmLeft (c : Config) (v : Byte) : Bool := v.getLsbD c.pcmLeftBit.val

/-- `v[PCM_RIGHT_BIT]`. -/
def pcmRight (c : Config) (v : Byte) : Bool := v.getLsbD c.pcmRightBit.val

/-- `v[PCM_FREQ_LSB + 1 : PCM_FREQ_LSB]`. -/
def pcmFreq (c : Config) (v : Byte) : BitVec 2 := v.extractLsb' c.pcmFreqLsb.val 2

/-- `v[7]`, the trigger bit of register 4. -/
def pcmTrigger (v : Byte) : Bool := v.getLsbD 7

/-- The start address `D.ahi : D.alo`, little-endian (10_state.md R43, 20_memory.md R70). -/
def pcmStart (d : Pcm) : Address := d.ahi ++ d.alo

/-- `DmaBytes(D.len)`: 4096 for 0, else 16 times the raw length (10_state.md R44). -/
def dmaBytes (len : Byte) : Nat := if len = 0 then 4096 else len.toNat * 16

/-- The nibble-samples of a playback, two per byte (44_sound_sample.md R196). -/
def dmaTotal (len : Byte) : Nat := dmaBytes len * 2

/-! ### Square waveform (43_sound_registers.md R166, 44_sound_sample.md R191) -/

/-- The 11-bit period `phi : plo` (10_state.md R33). -/
def squarePeriod (q : Square) : Nat := q.phi.toNat * 256 + q.plo.toNat

/-- The waveform length in samples of a period: product first, one truncating division (R166). -/
def squareSize (period : Nat) : Nat := (sampleRate * (period + 1) * 32) / masterClock

/-- The duty threshold (R191). -/
def squareThreshold (duty : BitVec 2) (size : Nat) : Nat :=
  if duty = 0 then size / 8
  else if duty = 1 then size / 4
  else if duty = 2 then size / 2
  else (3 * size) / 4

/-! ### Noise period and seed (44_sound_sample.md R193, 43_sound_registers.md R173) -/

/-- `NOISE_DIV[freq]` (00_scope.md R10). -/
def noiseDivisor (c : Config) (freq : BitVec 4) : Nat := c.noiseDiv[freq.toNat]'freq.isLt

/-- `NoisePeriod()`: the divisor scaled by `SAMPLE_RATE / MASTER_CLOCK`, product first, at least 1 (R193). -/
def noisePeriod (c : Config) (freq : BitVec 4) : Nat :=
  max 1 ((noiseDivisor c freq * sampleRate) / masterClock)

/-- "All-ones" at the width of the mode (R173, R194). -/
def lfsrSeed (m15 : Bool) : BitVec 15 := if m15 then 0x7FFF else 0x007F

/-! ### ROM indices (20_memory.md R65, R66) -/

/-- The ROM index of the switchable window at an offset: `BANK * 16384 + offset` (R65). -/
def romBankIndex (bank : BitVec 3) (offset : BitVec 14) : Nat := bank.toNat * 16384 + offset.toNat

/-- The ROM index of the fixed window at an offset: `ROM_SIZE - 16384 + offset` (R66). -/
def romFixedIndex (romSize : Nat) (offset : BitVec 14) : Nat := romSize - 16384 + offset.toNat

end Sys2Proof.Machine
end

