-- ==== Sys2Proof/Machine/Flags.lean ====
section
/-! DEFINITION. Every computation of a 1-bit condition: the interrupt enable, the firing conditions of the timer, the
fresh trigger of the PCM channel and the feedback of the LFSR. -/

namespace Sys2Proof.Machine

/-- The IRQ-enable comparison, "literally 'bits-equal-2'": `(v & SYSCTL_IRQ_MASK) = 0x02` (30_encoding.md R96). -/
def irqEnable (c : Config) (v : Byte) : Bool := decide (v &&& c.sysctlIrqMask = 0x02#8)

/-- A TICK fires when the timer is enabled and the counter is already 0 (42_timer_irq.md R150). -/
def tickFires (t : Timer) : Bool := t.en && decide (t.cnt = 0)

/-- A timer-value write fires when the value is 0 and the timer is currently enabled (41_bus_write.md R135). -/
def timerWriteFires (t : Timer) (v : Byte) : Bool := decide (v = 0) && t.en

/-- A trigger is fresh unless a playback is running and has emitted at least one nibble (43_sound_registers.md R178). -/
def freshTrigger (d : Pcm) : Bool := !(d.trig && decide (0 < d.played))

/-- The feedback bit of the LFSR: bit 0 xor bit 1 (44_sound_sample.md R194). -/
def lfsrFeedback (x : BitVec 15) : Bool := xor (x.getLsbD 0) (x.getLsbD 1)

end Sys2Proof.Machine
end

