-- ==== Sys2Proof/Machine/Ops.lean ====
section
/-! DEFINITION. The named operations over memories, registers and the bus, the fault and the interrupt request, and the
fetch of the next operation. -/

namespace Sys2Proof.Machine

/-! ### The two memories (10_state.md R22, R23) -/

/-- The byte written last at an index since RESET, if any. -/
def Memory.read : Memory → Nat → Option Byte
  | [], _ => none
  | (k, b) :: rest, i => if k = i then some b else Memory.read rest i

/-- Store a byte at an index, keeping the indices strictly rising. -/
def Memory.write : Memory → Nat → Byte → Memory
  | [], i, v => [(i, v)]
  | (k, b) :: rest, i, v =>
    if i < k then (i, v) :: (k, b) :: rest
    else if i = k then (i, v) :: rest
    else (k, b) :: Memory.write rest i v

/-- Every index listed is at least `lo`, the indices rise strictly, and all lie below `hi`. -/
def Memory.wfFrom (lo hi : Nat) : Memory → Bool
  | [] => true
  | (k, _) :: rest => decide (lo ≤ k) && decide (k < hi) && Memory.wfFrom (k + 1) hi rest

/-- The canonical form: indices rise strictly and lie in 0..8191. No entry equals what an unlisted index holds, since an
unlisted index holds no written byte. -/
def Memory.wf (m : Memory) : Bool := Memory.wfFrom 0 8192 m

/-- `RAM[i]`: the byte written last, else `INIT_RAM[i]` (R22, 70_reset_and_hazards.md R232). -/
def ramByte (s : State) (i : MemIndex) : Byte := (Memory.read s.ram i.toNat).getD (Config.initRam i)

/-- `VRAM[i]`: the byte written last, else `INIT_VRAM[i]` (R23, R232). -/
def vramByte (s : State) (i : MemIndex) : Byte := (Memory.read s.vram i.toNat).getD (Config.initVram i)

/-- `RAM[i] <- v`. -/
def storeRam (s : State) (i : MemIndex) (v : Byte) : State := s.withRam (Memory.write s.ram i.toNat v)

/-- `VRAM[i] <- v`. -/
def storeVram (s : State) (i : MemIndex) (v : Byte) : State := s.withVram (Memory.write s.vram i.toNat v)

/-! ### The ROM image (10_state.md R24, 00_scope.md R8) -/

/-- The cells of an image whose bytes are `bytes` from index `i` on. -/
def romCellsFrom : Nat → List Byte → List Host.Cell
  | _, [] => []
  | i, b :: bs => (i, b) :: romCellsFrom (i + 1) bs

/-- Load an image: refused (`none`) when it is shorter than 16384 bytes (R8, 60_exceptions.md R211). -/
def romOfImage (bytes : List Byte) : Option Rom :=
  if bytes.length < 16384 then none
  else some { extra := bytes.length - 16384, cells := romCellsFrom 0 bytes }

/-- The byte a list of cells gives an index, else an open byte. -/
def romByteIn : List Host.Cell → Nat → Byte
  | [], i => Config.openRomByte i
  | (k, b) :: rest, i => if k = i then b else romByteIn rest i

/-- `ROM[i]` (R24). -/
def romByte (r : Rom) (i : Nat) : Byte := romByteIn r.cells i

/-- `RomAt(i)`: the byte, or the fault when `i` is at or beyond the size (20_memory.md R68). -/
def romAt (s : State) (i : Nat) : Answer Byte :=
  if i < s.cfg.rom.size then .done (romByte s.cfg.rom i) false s else .fault (.romIndexOutOfRange i)

/-! ### The LCD register file (20_memory.md R77) -/

/-- `LCD[i]`. -/
def lcdRead (l : Lcd) (i : BitVec 2) : Byte :=
  if i = 0 then l.hsize else if i = 1 then l.vsize else if i = 2 then l.xscroll else l.yscroll

/-- `LCD[i] <- v`. -/
def lcdWrite (l : Lcd) (i : BitVec 2) (v : Byte) : Lcd :=
  if i = 0 then { l with hsize := v }
  else if i = 1 then { l with vsize := v }
  else if i = 2 then { l with xscroll := v }
  else { l with yscroll := v }

/-- The LCD register an offset in the mirrored block selects: address modulo 4 (the block starts at a multiple of 4). -/
def lcdIndex (offset : BitVec 3) : BitVec 2 := offset.setWidth 2

/-! ### The square channels by number -/

/-- `SQ[c]`. -/
def State.sq (s : State) : SquareId → Square
  | .c0 => s.sq0
  | .c1 => s.sq1

/-- `s` with another `SQ[c]`. -/
def State.withSq (s : State) (c : SquareId) (q : Square) : State :=
  match c with
  | .c0 => s.withSq0 q
  | .c1 => s.withSq1 q

/-! ### The interrupt request and its taking (60_exceptions.md R214, R218) -/

/-- Raise the maskable interrupt request: set the latch and clear the enabled flag, "each raising clears `T.en`" (R214). -/
def raiseIrq (s : State) : State := (s.withTimer { s.timer with en := false }).withIrqPend true

/-- The driver takes the request: the latch is returned and cleared (42_timer_irq.md R154). -/
def takeIrqRequest (s : State) : State := (s.withIrqPend false).withOut (.irq s.irqPend)

/-- Disarm the timer: the acknowledging status reads clear `T.en` and nothing else (40_bus_read.md R115, R117). -/
def disarmTimer (s : State) : State := s.withTimer { s.timer with en := false }

/-! ### Results and the fault -/

/-- Report a fault of an operation applied in state `s`: nothing else changes, "every change it made before the fault is
discarded" (60_exceptions.md R210). -/
def raiseFault (s : State) (f : Fault) : State := s.withOut (.faulted f)

/-- A READ applied in state `s` returns the byte and the diagnostic bit, or reports the fault. -/
def finishRead (s : State) : Answer Byte → State
  | .done b d t => t.withOut (.byte b d)
  | .fault f => raiseFault s f

/-- A WRITE that cannot fault returns the diagnostic bit. -/
def finishWrite (diag : Bool) (t : State) : State := t.withOut (.ack diag)

/-- A WRITE applied in state `s` that may fetch returns the fetch's diagnostic bit, or reports the fault (R178). -/
def finishFetchingWrite (s : State) : Answer Unit → State
  | .done _ d t => t.withOut (.ack d)
  | .fault f => raiseFault s f

/-! ### READ, one operation per class of address (40_bus_read.md R111 to R122) -/

/-- R111: `return RAM[a]`. -/
def readRam (s : State) (a : BitVec 13) : Answer Byte := .done (ramByte s a) false s

/-- R112: `return LCD[a mod 4]`. -/
def readLcd (s : State) (a : BitVec 3) : Answer Byte := .done (lcdRead s.lcd (lcdIndex a)) false s

/-- R113: `return (~K) & 0xFF`; the input is sampled at the read and not latched. -/
def readCtrl (s : State) : Answer Byte := .done (~~~s.keys) false s

/-- R114: `return T.cnt`. -/
def readTimer (s : State) : Answer Byte := .done s.timer.cnt false s

/-- R115: `T.en <- 0; return 0x01`. -/
def readTack (s : State) : Answer Byte := .done 0x01 false (disarmTimer s)

/-- R116: `return 0x00`. -/
def readAack (s : State) : Answer Byte := .done 0x00 false s

/-- R117: `T.en <- 0; return 0x03`. -/
def readIrqstat (s : State) : Answer Byte := .done 0x03 false (disarmTimer s)

/-- R118, R122: `diag <- 1; return 0xFF`. -/
def readNothing (s : State) : Answer Byte := .done 0xFF true s

/-- R119: `return VRAM[a - 0x4000]`. -/
def readVram (s : State) (a : BitVec 13) : Answer Byte := .done (vramByte s a) false s

/-- R120: `return RomAt(BANK * 16384 + (a - 0x8000))`. -/
def readRomBank (s : State) (a : BitVec 14) : Answer Byte := romAt s (romBankIndex s.bank a)

/-- R121: `return RomAt(ROM_SIZE - 16384 + (a - 0xC000))`. -/
def readRomFixed (s : State) (a : BitVec 14) : Answer Byte := romAt s (romFixedIndex s.cfg.rom.size a)

/-- READ inside the register window (R110). -/
def busReadRegister (s : State) (a : Address) : Answer Byte :=
  if s.cfg.hits .lcd a then readLcd s (BitVec.ofNat 3 (s.cfg.offset .lcd a))
  else if s.cfg.hits .ctrl a then readCtrl s
  else if s.cfg.hits .timer a then readTimer s
  else if s.cfg.hits .tack a then readTack s
  else if s.cfg.hits .aack a then readAack s
  else if s.cfg.hits .irqstat a then readIrqstat s
  else readNothing s

/-- `BusRead(a)`, the READ dispatch of R110: what a CPU READ does, and what a PCM fetch does (20_memory.md R75). -/
def busRead (s : State) (a : Address) : Answer Byte :=
  if a.toNat ≤ 0x1FFF then readRam s (a.setWidth 13)
  else if a.toNat ≤ 0x2FFF then busReadRegister s a
  else if a.toNat ≤ 0x3FFF then readNothing s
  else if a.toNat ≤ 0x5FFF then readVram s (a.setWidth 13)
  else if a.toNat ≤ 0x7FFF then readNothing s
  else if a.toNat ≤ 0xBFFF then readRomBank s (a.setWidth 14)
  else readRomFixed s (a.setWidth 14)

/-! ### WRITE, the stores that are not sound registers (41_bus_write.md R131 to R137) -/

/-- R132: `LCD[a mod 4] <- v`. -/
def writeLcd (s : State) (a : BitVec 3) (v : Byte) : State := s.withLcd (lcdWrite s.lcd (lcdIndex a) v)

/-- R134: all four decoded elements are replaced by every write. -/
def writeSysctl (s : State) (v : Byte) : State :=
  ((s.withBank (sysctlBank v)).withNmiEn (sysctlNmi v)).withTimer
    { s.timer with en := irqEnable s.cfg v, slow := sysctlSlow s.cfg v }

/-- R135: set the counter, clear the accumulator, and raise the interrupt when 0 is written to an enabled timer. -/
def writeTimer (s : State) (v : Byte) : State :=
  let t := s.withTimer { s.timer with cnt := v, acc := 0 }
  if timerWriteFires s.timer v then raiseIrq t else t

/-! ### Fetching the next operation -/

/-- The word of the next operation, and the state in which it is applied: the request is taken off the schedule and the
input `K` stands at the level it names. Nothing is fetched when nothing is pending (00_scope.md R6). -/
def fetchRequest (s : State) : Option (TransactionWord × State) :=
  match s.pending with
  | [] => none
  | r :: rest => some (r.word, (s.withPending rest).withKeys r.keys)

/-- The requests that apply a script of the written form (30_encoding.md R103, R104), from the level `k` of `K` on. -/
def scheduleOf (k : Byte) (ls : List ScriptLine) : List Request :=
  (expandScript k ls).map fun p => { word := p.1.word, keys := p.2 }

end Sys2Proof.Machine
end

