-- ==== Sys2Proof/Machine/Read.lean ====
section
/-! DEFINITION. The READ rows (40_bus_read.md R111 to R122). -/

namespace Sys2Proof.Machine

/-- RD_RAM (R111). -/
def execRdRam (a : BitVec 13) (s : State) : Host.Outcome State Fault Refusal := .next (finishRead s (readRam s a))

/-- RD_LCD (R112). -/
def execRdLcd (a : BitVec 3) (s : State) : Host.Outcome State Fault Refusal := .next (finishRead s (readLcd s a))

/-- RD_CTRL (R113). -/
def execRdCtrl (s : State) : Host.Outcome State Fault Refusal := .next (finishRead s (readCtrl s))

/-- RD_TIMER (R114). -/
def execRdTimer (s : State) : Host.Outcome State Fault Refusal := .next (finishRead s (readTimer s))

/-- RD_TACK (R115). -/
def execRdTack (s : State) : Host.Outcome State Fault Refusal := .next (finishRead s (readTack s))

/-- RD_AACK (R116). -/
def execRdAack (s : State) : Host.Outcome State Fault Refusal := .next (finishRead s (readAack s))

/-- RD_IRQSTAT (R117). -/
def execRdIrqstat (s : State) : Host.Outcome State Fault Refusal := .next (finishRead s (readIrqstat s))

/-- RD_REG_UNKNOWN (R118): the address plays no part in the result. -/
def execRdRegUnknown (s : State) : Host.Outcome State Fault Refusal := .next (finishRead s (readNothing s))

/-- RD_UNMAPPED_3 (R122), 0x3000–0x3FFF. -/
def execRdUnmapped3 (s : State) : Host.Outcome State Fault Refusal := .next (finishRead s (readNothing s))

/-- RD_VRAM (R119). -/
def execRdVram (a : BitVec 13) (s : State) : Host.Outcome State Fault Refusal := .next (finishRead s (readVram s a))

/-- RD_UNMAPPED_6 (R122), 0x6000–0x7FFF. -/
def execRdUnmapped6 (s : State) : Host.Outcome State Fault Refusal := .next (finishRead s (readNothing s))

/-- RD_ROM_BANK (R120): reads through `BANK`; beyond the ROM it reports the fault of R210 and changes nothing. -/
def execRdRomBank (a : BitVec 14) (s : State) : Host.Outcome State Fault Refusal :=
  .next (finishRead s (readRomBank s a))

/-- RD_ROM_FIXED (R121). -/
def execRdRomFixed (a : BitVec 14) (s : State) : Host.Outcome State Fault Refusal :=
  .next (finishRead s (readRomFixed s a))

end Sys2Proof.Machine
end

