-- ==== Sys2Proof/Machine/Reset.lean ====
section
/-! DEFINITION. RESET (70_reset_and_hazards.md R230, R231). -/

namespace Sys2Proof.Machine

/-- Every state element at its reset value (R230); the configuration, the input and the schedule persist (R231). -/
def resetState (s : State) : State :=
  { s with
    ram := [], vram := [], lcd := { hsize := 0, vsize := 0, xscroll := 0, yscroll := 0 }, bank := 0, nmiEn := false,
    timer := { en := false, slow := false, cnt := 0, acc := 0 }, irqPend := false, sq0 := Square.reset,
    sq1 := Square.reset, noise := Noise.reset, pcm := Pcm.reset, out := .none }

/-- RESET (R230). -/
def execReset (s : State) : Host.Outcome State Fault Refusal := .next (resetState s)

end Sys2Proof.Machine
end

