-- ==== Sys2Proof/Machine/Sample.lean ====
section
/-! DEFINITION. SAMPLE: the four channel steps and the mixer (44_sound_sample.md). -/

namespace Sys2Proof.Machine

/-! ### Square channels (R190) -/

/-- The phase advances, and a wrap counts the length down and disables the channel when nothing is left (R190). -/
def squareAdvance (q : Square) : Square :=
  if q.size ≤ q.pos + 1 then { q with pos := 0, len := q.len - 1, en := q.en && decide (0 < q.len - 1) }
  else { q with pos := q.pos + 1 }

/-- `SquareStep(c)`: the contribution and the channel after; a disabled or silent channel is inert (R190). -/
def squareStep (q : Square) : Nat × Square :=
  if q.en = false ∨ q.size = 0 then (0, q)
  else (if q.pos < squareThreshold q.duty q.size then q.vol.toNat else 0, squareAdvance q)

/-! ### Noise channel (R193, R194) -/

/-- The shift of the LFSR before the guard against zero (R194). -/
def lfsrShift (m15 : Bool) (x : BitVec 15) : BitVec 15 :=
  if lfsrFeedback x then
    if m15 then (x >>> 1) ||| 0x4000 else ((x >>> 1) &&& 0x007F) ||| 0x0040
  else x >>> 1

/-- `LfsrUpdate`: the shift, and the reseed to all-ones should it give 0 (R194). -/
def lfsrUpdate (m15 : Bool) (x : BitVec 15) : BitVec 15 :=
  if lfsrShift m15 x = 0 then lfsrSeed m15 else lfsrShift m15 x

/-- An LFSR update of the channel with its length gating: in non-continuous mode the length counts down, not below 0, and
the channel is disabled when it is 0 (R193). -/
def noiseUpdate (n : Noise) : Noise :=
  let m := { n with pos := 0, lfsr := lfsrUpdate n.m15 n.lfsr }
  if n.cont then m
  else
    let l := if n.len = 0 then n.len else n.len - 1
    { m with len := l, en := n.en && !decide (l = 0) }

/-- The phase advances by one sample, and on reaching the period the LFSR is updated (R193). -/
def noiseAdvance (c : Config) (n : Noise) : Noise :=
  if noisePeriod c n.freq ≤ n.pos + 1 then noiseUpdate n else { n with pos := n.pos + 1 }

/-- The volume gated by the enabled flag and the low bit of the LFSR as they stand (R193). -/
def noiseOut (n : Noise) : Nat := if n.en && n.lfsr.getLsbD 0 then n.vol.toNat else 0

/-- `NoiseStep()`: the left and right contributions and the channel after; a disabled channel is inert (R193). -/
def noiseStep (c : Config) (n : Noise) : (Nat × Nat) × Noise :=
  if n.en then
    let m := noiseAdvance c n
    ((if m.left then noiseOut m else 0, if m.right then noiseOut m else 0), m)
  else ((0, 0), n)

/-! ### PCM channel (R196) -/

/-- `D.byte[7:4]`. -/
def pcmHighNibble (b : Byte) : Nat := (b.extractLsb' 4 4).toNat

/-- `D.byte[3:0]`. -/
def pcmLowNibble (b : Byte) : Nat := (b.extractLsb' 0 4).toNat

/-- `DmaStep()`: the contribution, with the diagnostic bit of a fetch and the state after (R196). -/
def dmaStep (s : State) : Answer Nat :=
  if s.pcm.trig = false then .done 0 false s
  else if dmaTotal s.pcm.len ≤ s.pcm.played then .done 0 false (s.withPcm { s.pcm with trig := false })
  else if s.pcm.sel = false then
    .done (pcmHighNibble s.pcm.byte) false (s.withPcm { s.pcm with sel := true, played := s.pcm.played + 1 })
  else
    match busRead (s.withPcm { s.pcm with sel := false, cur := s.pcm.cur + 1 }) (s.pcm.cur + 1) with
    | .done b d t => .done (pcmLowNibble s.pcm.byte) d (t.withPcm { t.pcm with byte := b, played := t.pcm.played + 1 })
    | .fault f => .fault f

/-! ### Mixer (R198) -/

/-- `(d + (L + R) div 2) * 256` with `L = s0 + s1 + nl` and `R = s0 + s1 + nr` (R198). -/
def mix (s0 s1 nl nr d : Nat) : Nat := (d + ((s0 + s1 + nl) + (s0 + s1 + nr)) / 2) * 256

/-- The two square steps and the noise step, which touch disjoint state (R198). -/
def stepGenerators (s : State) : State :=
  ((s.withSq0 (squareStep s.sq0).2).withSq1 (squareStep s.sq1).2).withNoise (noiseStep s.cfg s.noise).2

/-- The state after SAMPLE: a fault of the PCM fetch cancels the steps already taken (R198, 60_exceptions.md R210). -/
def sampleState (s : State) : State :=
  match dmaStep (stepGenerators s) with
  | .done d diag t =>
    t.withOut (.sample
      (BitVec.ofNat 16 (mix (squareStep s.sq0).1 (squareStep s.sq1).1 (noiseStep s.cfg s.noise).1.1
        (noiseStep s.cfg s.noise).1.2 d)) diag)
  | .fault f => raiseFault s f

/-- SAMPLE (R198). -/
def execSample (s : State) : Host.Outcome State Fault Refusal := .next (sampleState s)

end Sys2Proof.Machine
end

