-- ==== Sys2Proof/Machine/SoundRegisters.lean ====
section
/-! DEFINITION. The writes of the sound registers (43_sound_registers.md R165 to R178). -/

namespace Sys2Proof.Machine

/-! ### Square channels -/

/-- `SqRecompute(c)`: the size follows the period held, and the phase restarts (R166). -/
def squareRecompute (q : Square) : Square := { q with size := squareSize (squarePeriod q), pos := 0 }

/-- R167, period low. -/
def squareWritePlo (q : Square) (v : Byte) : Square := squareRecompute { q with plo := v }

/-- R168, period high. -/
def squareWritePhi (q : Square) (v : Byte) : Square := squareRecompute { q with phi := squarePhi v }

/-- R169, control. -/
def squareWriteControl (q : Square) (v : Byte) : Square :=
  { q with en := squareEn v, duty := squareDuty v, vol := squareVol v }

/-- R170, length. -/
def squareWriteLength (q : Square) (v : Byte) : Square := { q with len := squareLen v }

/-- WR_SQ0_R0 (R167). -/
def execWrSq0R0 (v : Byte) (s : State) : Host.Outcome State Fault Refusal :=
  .next (finishWrite false (s.withSq .c0 (squareWritePlo (s.sq .c0) v)))

/-- WR_SQ0_R1 (R168). -/
def execWrSq0R1 (v : Byte) (s : State) : Host.Outcome State Fault Refusal :=
  .next (finishWrite false (s.withSq .c0 (squareWritePhi (s.sq .c0) v)))

/-- WR_SQ0_R2 (R169). -/
def execWrSq0R2 (v : Byte) (s : State) : Host.Outcome State Fault Refusal :=
  .next (finishWrite false (s.withSq .c0 (squareWriteControl (s.sq .c0) v)))

/-- WR_SQ0_R3 (R170). -/
def execWrSq0R3 (v : Byte) (s : State) : Host.Outcome State Fault Refusal :=
  .next (finishWrite false (s.withSq .c0 (squareWriteLength (s.sq .c0) v)))

/-- WR_SQ1_R0 (R167). -/
def execWrSq1R0 (v : Byte) (s : State) : Host.Outcome State Fault Refusal :=
  .next (finishWrite false (s.withSq .c1 (squareWritePlo (s.sq .c1) v)))

/-- WR_SQ1_R1 (R168). -/
def execWrSq1R1 (v : Byte) (s : State) : Host.Outcome State Fault Refusal :=
  .next (finishWrite false (s.withSq .c1 (squareWritePhi (s.sq .c1) v)))

/-- WR_SQ1_R2 (R169). -/
def execWrSq1R2 (v : Byte) (s : State) : Host.Outcome State Fault Refusal :=
  .next (finishWrite false (s.withSq .c1 (squareWriteControl (s.sq .c1) v)))

/-- WR_SQ1_R3 (R170). -/
def execWrSq1R3 (v : Byte) (s : State) : Host.Outcome State Fault Refusal :=
  .next (finishWrite false (s.withSq .c1 (squareWriteLength (s.sq .c1) v)))

/-! ### Noise channel -/

/-- R171: frequency code and volume; the phase and the LFSR are kept. -/
def noiseWriteR0 (n : Noise) (v : Byte) : Noise := { n with freq := noiseFreq v, vol := noiseVol v }

/-- R172: the raw length. -/
def noiseWriteR1 (n : Noise) (v : Byte) : Noise := { n with len := v }

/-- R173: the five flags; the LFSR is reseeded at the width just written and the phase restarts. -/
def noiseWriteR2 (c : Config) (n : Noise) (v : Byte) : Noise :=
  { n with
    en := noiseEn c v, left := noiseLeft c v, right := noiseRight c v, cont := noiseCont c v, m15 := noiseM15 c v,
    lfsr := lfsrSeed (noiseM15 c v), pos := 0 }

/-- WR_NOISE_R0 (R171). -/
def execWrNoiseR0 (v : Byte) (s : State) : Host.Outcome State Fault Refusal :=
  .next (finishWrite false (s.withNoise (noiseWriteR0 s.noise v)))

/-- WR_NOISE_R1 (R172). -/
def execWrNoiseR1 (v : Byte) (s : State) : Host.Outcome State Fault Refusal :=
  .next (finishWrite false (s.withNoise (noiseWriteR1 s.noise v)))

/-- WR_NOISE_R2 (R173). -/
def execWrNoiseR2 (v : Byte) (s : State) : Host.Outcome State Fault Refusal :=
  .next (finishWrite false (s.withNoise (noiseWriteR2 s.cfg s.noise v)))

/-! ### PCM channel -/

/-- R174: the low byte of the start address. -/
def pcmWriteR0 (d : Pcm) (v : Byte) : Pcm := { d with alo := v }

/-- R175: the high byte of the start address. -/
def pcmWriteR1 (d : Pcm) (v : Byte) : Pcm := { d with ahi := v }

/-- R176: the raw length. -/
def pcmWriteR2 (d : Pcm) (v : Byte) : Pcm := { d with len := v }

/-- R177: bank, route flags and frequency code, stored and read by no rule. -/
def pcmWriteR3 (c : Config) (d : Pcm) (v : Byte) : Pcm :=
  { d with bank := pcmBank c v, left := pcmLeft c v, right := pcmRight c v, freq := pcmFreq c v }

/-- The channel at a fresh trigger, before its first byte is fetched (R178). -/
def pcmRestart (d : Pcm) : Pcm := { d with played := 0, cur := pcmStart d, sel := false }

/-- R178, the trigger register. -/
def pcmWriteR4 (s : State) (v : Byte) : Answer Unit :=
  if pcmTrigger v then
    if freshTrigger s.pcm then
      match busRead (s.withPcm (pcmRestart s.pcm)) (pcmStart s.pcm) with
      | .done b d t => .done () d (t.withPcm { t.pcm with byte := b, trig := true })
      | .fault f => .fault f
    else .done () false (s.withPcm { s.pcm with trig := true })
  else .done () false s

/-- WR_PCM_R0 (R174). -/
def execWrPcmR0 (v : Byte) (s : State) : Host.Outcome State Fault Refusal :=
  .next (finishWrite false (s.withPcm (pcmWriteR0 s.pcm v)))

/-- WR_PCM_R1 (R175). -/
def execWrPcmR1 (v : Byte) (s : State) : Host.Outcome State Fault Refusal :=
  .next (finishWrite false (s.withPcm (pcmWriteR1 s.pcm v)))

/-- WR_PCM_R2 (R176). -/
def execWrPcmR2 (v : Byte) (s : State) : Host.Outcome State Fault Refusal :=
  .next (finishWrite false (s.withPcm (pcmWriteR2 s.pcm v)))

/-- WR_PCM_R3 (R177). -/
def execWrPcmR3 (v : Byte) (s : State) : Host.Outcome State Fault Refusal :=
  .next (finishWrite false (s.withPcm (pcmWriteR3 s.cfg s.pcm v)))

/-- WR_PCM_R4 (R178): a fetch beyond the ROM leaves everything as it was and reports the fault of R210. -/
def execWrPcmR4 (v : Byte) (s : State) : Host.Outcome State Fault Refusal :=
  .next (finishFetchingWrite s (pcmWriteR4 s v))

end Sys2Proof.Machine
end

