-- ==== Sys2Proof/Machine/Timer.lean ====
section
/-! DEFINITION. TICK, FRAME and TAKEIRQ (42_timer_irq.md). -/

namespace Sys2Proof.Machine

/-- One count of the timer that does not fire (R150): with the fast divisor the counter drops by 1; with the slow one
the accumulator gains 256 and, on reaching 16384, the counter drops by 1 and the accumulator returns to 0. -/
def timerCount (t : Timer) : Timer :=
  if t.slow then
    if 16384 ≤ t.acc + 256 then { t with cnt := t.cnt - 1, acc := 0 } else { t with acc := t.acc + 256 }
  else { t with cnt := t.cnt - 1 }

/-- TICK (R150). -/
def execTick (s : State) : Host.Outcome State Fault Refusal :=
  .next ((if tickFires s.timer then raiseIrq s else s.withTimer (timerCount s.timer)).withOut .none)

/-- FRAME (R153): the NMI request bit is `NMI_EN`; no state changes. -/
def execFrame (s : State) : Host.Outcome State Fault Refusal := .next (s.withOut (.nmi s.nmiEn))

/-- TAKEIRQ (R154). -/
def execTakeIrq (s : State) : Host.Outcome State Fault Refusal := .next (takeIrqRequest s)

end Sys2Proof.Machine
end

