-- ==== Sys2Proof/Machine/Write.lean ====
section
/-! DEFINITION. The WRITE rows that are not sound registers (41_bus_write.md R131 to R140). -/

namespace Sys2Proof.Machine

/-- WR_RAM (R131). -/
def execWrRam (a : BitVec 13) (v : Byte) (s : State) : Host.Outcome State Fault Refusal :=
  .next (finishWrite false (storeRam s a v))

/-- WR_LCD (R132). -/
def execWrLcd (a : BitVec 3) (v : Byte) (s : State) : Host.Outcome State Fault Refusal :=
  .next (finishWrite false (writeLcd s a v))

/-- WR_VDMA_A (R133): accepted and discarded, no diagnostic. -/
def execWrVdmaA (s : State) : Host.Outcome State Fault Refusal := .next (finishWrite false s)

/-- WR_VDMA_B (R133): accepted and discarded, no diagnostic. -/
def execWrVdmaB (s : State) : Host.Outcome State Fault Refusal := .next (finishWrite false s)

/-- WR_LINK0 (R133): accepted and discarded, no diagnostic. -/
def execWrLink0 (s : State) : Host.Outcome State Fault Refusal := .next (finishWrite false s)

/-- WR_LINK1 (R133): accepted and discarded, no diagnostic. -/
def execWrLink1 (s : State) : Host.Outcome State Fault Refusal := .next (finishWrite false s)

/-- WR_TIMER (R135). -/
def execWrTimer (v : Byte) (s : State) : Host.Outcome State Fault Refusal :=
  .next (finishWrite false (writeTimer s v))

/-- WR_SYSCTL (R134). -/
def execWrSysctl (v : Byte) (s : State) : Host.Outcome State Fault Refusal :=
  .next (finishWrite false (writeSysctl s v))

/-- WR_REG_OTHER (R139): no effect, with the diagnostic. -/
def execWrRegOther (s : State) : Host.Outcome State Fault Refusal := .next (finishWrite true s)

/-- WR_UNMAPPED_3 (R140), 0x3000–0x3FFF: no effect, with the diagnostic. -/
def execWrUnmapped3 (s : State) : Host.Outcome State Fault Refusal := .next (finishWrite true s)

/-- WR_VRAM (R137). -/
def execWrVram (a : BitVec 13) (v : Byte) (s : State) : Host.Outcome State Fault Refusal :=
  .next (finishWrite false (storeVram s a v))

/-- WR_UNMAPPED_6 (R140), 0x6000–0x7FFF: no effect, with the diagnostic. -/
def execWrUnmapped6 (s : State) : Host.Outcome State Fault Refusal := .next (finishWrite true s)

/-- WR_ROM_BANK (R138): silently ignored, whatever `BANK` holds. -/
def execWrRomBank (s : State) : Host.Outcome State Fault Refusal := .next (finishWrite false s)

/-- WR_ROM_FIXED (R138): silently ignored. -/
def execWrRomFixed (s : State) : Host.Outcome State Fault Refusal := .next (finishWrite false s)

end Sys2Proof.Machine
end

