-- ==== Sys2Proof/Machine/Dispatch.lean ====
section
/-! DEFINITION. One arm per row of spec/opcode_table.json. -/

namespace Sys2Proof.Machine

/-- The meaning of an instruction. -/
def exec (i : Instr) (s : State) : Host.Outcome State Fault Refusal :=
  match i with
  | .rdRam a => Sys2Proof.Machine.execRdRam a s
  | .rdLcd a => Sys2Proof.Machine.execRdLcd a s
  | .rdCtrl => Sys2Proof.Machine.execRdCtrl s
  | .rdTimer => Sys2Proof.Machine.execRdTimer s
  | .rdTack => Sys2Proof.Machine.execRdTack s
  | .rdAack => Sys2Proof.Machine.execRdAack s
  | .rdIrqstat => Sys2Proof.Machine.execRdIrqstat s
  | .rdRegUnknown _ => Sys2Proof.Machine.execRdRegUnknown s
  | .rdUnmapped3 _ => Sys2Proof.Machine.execRdUnmapped3 s
  | .rdVram a => Sys2Proof.Machine.execRdVram a s
  | .rdUnmapped6 _ => Sys2Proof.Machine.execRdUnmapped6 s
  | .rdRomBank a => Sys2Proof.Machine.execRdRomBank a s
  | .rdRomFixed a => Sys2Proof.Machine.execRdRomFixed a s
  | .wrRam a v => Sys2Proof.Machine.execWrRam a v s
  | .wrLcd a v => Sys2Proof.Machine.execWrLcd a v s
  | .wrVdmaA _ _ => Sys2Proof.Machine.execWrVdmaA s
  | .wrVdmaB _ _ => Sys2Proof.Machine.execWrVdmaB s
  | .wrSq0R0 v => Sys2Proof.Machine.execWrSq0R0 v s
  | .wrSq0R1 v => Sys2Proof.Machine.execWrSq0R1 v s
  | .wrSq0R2 v => Sys2Proof.Machine.execWrSq0R2 v s
  | .wrSq0R3 v => Sys2Proof.Machine.execWrSq0R3 v s
  | .wrSq1R0 v => Sys2Proof.Machine.execWrSq1R0 v s
  | .wrSq1R1 v => Sys2Proof.Machine.execWrSq1R1 v s
  | .wrSq1R2 v => Sys2Proof.Machine.execWrSq1R2 v s
  | .wrSq1R3 v => Sys2Proof.Machine.execWrSq1R3 v s
  | .wrPcmR0 v => Sys2Proof.Machine.execWrPcmR0 v s
  | .wrPcmR1 v => Sys2Proof.Machine.execWrPcmR1 v s
  | .wrPcmR2 v => Sys2Proof.Machine.execWrPcmR2 v s
  | .wrPcmR3 v => Sys2Proof.Machine.execWrPcmR3 v s
  | .wrPcmR4 v => Sys2Proof.Machine.execWrPcmR4 v s
  | .wrLink0 _ => Sys2Proof.Machine.execWrLink0 s
  | .wrLink1 _ => Sys2Proof.Machine.execWrLink1 s
  | .wrTimer v => Sys2Proof.Machine.execWrTimer v s
  | .wrSysctl v => Sys2Proof.Machine.execWrSysctl v s
  | .wrNoiseR0 v => Sys2Proof.Machine.execWrNoiseR0 v s
  | .wrNoiseR1 v => Sys2Proof.Machine.execWrNoiseR1 v s
  | .wrNoiseR2 v => Sys2Proof.Machine.execWrNoiseR2 v s
  | .wrRegOther _ _ => Sys2Proof.Machine.execWrRegOther s
  | .wrUnmapped3 _ _ => Sys2Proof.Machine.execWrUnmapped3 s
  | .wrVram a v => Sys2Proof.Machine.execWrVram a v s
  | .wrUnmapped6 _ _ => Sys2Proof.Machine.execWrUnmapped6 s
  | .wrRomBank _ _ => Sys2Proof.Machine.execWrRomBank s
  | .wrRomFixed _ _ => Sys2Proof.Machine.execWrRomFixed s
  | .tick => Sys2Proof.Machine.execTick s
  | .frame => Sys2Proof.Machine.execFrame s
  | .sample => Sys2Proof.Machine.execSample s
  | .takeIrq => Sys2Proof.Machine.execTakeIrq s
  | .reset => Sys2Proof.Machine.execReset s

end Sys2Proof.Machine
end

