-- ==== Sys2Proof/Machine/Step.lean ====
section
/-! DEFINITION. One step: the next operation of the schedule is fetched, decoded under the configuration and applied. -/

namespace Sys2Proof.Machine

/-- One step. With nothing pending nothing changes: the block "changes state only when one of seven operations is
applied to it" (00_scope.md R6). A word of the reserved kind is refused (30_encoding.md R92). -/
def step (s : State) : Host.Outcome State Fault Refusal :=
  match fetchRequest s with
  | none => .next s
  | some (w, t) =>
    match decode s.cfg w with
    | .ok i => exec i t
    | .error _ => .refused .reservedKind

/-- `s` with an instruction, given by the number `w` of its low `nbits` bits, as the next operation of the schedule, at
the button levels that stand in `s`. -/
def State.withFetchWord (s : State) (nbits w : Nat) : State :=
  s.withPending ({ word := BitVec.ofNat 27 (w % 2 ^ nbits), keys := s.keys } :: s.pending.tail)

end Sys2Proof.Machine
end

