-- ==== Sys2Proof/Safety.lean ====
section
/-! DEFINITION. What counts as a good state and a good run, in the terms the statements use: the invariants of
10_state.md R49, runs of one instruction, and the classes of rows and the views of a state that whole-machine
statements are about. -/

namespace Sys2Proof

/-- READ rows of the table (40_bus_read.md R111 to R122). -/
def Instr.isRead : Instr → Bool
  | .rdRam _ | .rdLcd _ | .rdCtrl | .rdTimer | .rdTack | .rdAack | .rdIrqstat | .rdRegUnknown _ => true
  | .rdUnmapped3 _ | .rdVram _ | .rdUnmapped6 _ | .rdRomBank _ | .rdRomFixed _ => true
  | .wrRam _ _ | .wrLcd _ _ | .wrVdmaA _ _ | .wrVdmaB _ _ => false
  | .wrSq0R0 _ | .wrSq0R1 _ | .wrSq0R2 _ | .wrSq0R3 _ | .wrSq1R0 _ | .wrSq1R1 _ | .wrSq1R2 _ | .wrSq1R3 _ => false
  | .wrPcmR0 _ | .wrPcmR1 _ | .wrPcmR2 _ | .wrPcmR3 _ | .wrPcmR4 _ => false
  | .wrLink0 _ | .wrLink1 _ | .wrTimer _ | .wrSysctl _ | .wrNoiseR0 _ | .wrNoiseR1 _ | .wrNoiseR2 _ => false
  | .wrRegOther _ _ | .wrUnmapped3 _ _ | .wrVram _ _ | .wrUnmapped6 _ _ | .wrRomBank _ _ | .wrRomFixed _ _ => false
  | .tick | .frame | .sample | .takeIrq | .reset => false

/-- The rows whose access reaches no store and no handler, which report the diagnostic (60_exceptions.md R213). -/
def Instr.isUnmapped : Instr → Bool
  | .rdRegUnknown _ | .rdUnmapped3 _ | .rdUnmapped6 _ | .wrRegOther _ _ | .wrUnmapped3 _ _ | .wrUnmapped6 _ _ => true
  | .rdRam _ | .rdLcd _ | .rdCtrl | .rdTimer | .rdTack | .rdAack | .rdIrqstat => false
  | .rdVram _ | .rdRomBank _ | .rdRomFixed _ => false
  | .wrRam _ _ | .wrLcd _ _ | .wrVdmaA _ _ | .wrVdmaB _ _ => false
  | .wrSq0R0 _ | .wrSq0R1 _ | .wrSq0R2 _ | .wrSq0R3 _ | .wrSq1R0 _ | .wrSq1R1 _ | .wrSq1R2 _ | .wrSq1R3 _ => false
  | .wrPcmR0 _ | .wrPcmR1 _ | .wrPcmR2 _ | .wrPcmR3 _ | .wrPcmR4 _ => false
  | .wrLink0 _ | .wrLink1 _ | .wrTimer _ | .wrSysctl _ | .wrNoiseR0 _ | .wrNoiseR1 _ | .wrNoiseR2 _ => false
  | .wrVram _ _ | .wrRomBank _ _ | .wrRomFixed _ _ => false
  | .tick | .frame | .sample | .takeIrq | .reset => false

end Sys2Proof

namespace Sys2Proof

/-! ### Which row an operation is -/

/-- `READ a` is the row `i`, whatever stands in the data field (30_encoding.md R90, R92). -/
def ReadIs (c : Config) (a : Address) (i : Instr) : Prop := ∀ z : Byte, decode c (makeWord 0b000 a z) = .ok i

/-- `WRITE a, v` is the row `i`. -/
def WriteIs (c : Config) (a : Address) (v : Byte) (i : Instr) : Prop := decode c (makeWord 0b001 a v) = .ok i

/-- The operation of this kind is the row `i`, whatever stands in the address and data fields. -/
def KindIs (c : Config) (k : BitVec 3) (i : Instr) : Prop :=
  ∀ (a : Address) (z : Byte), decode c (makeWord k a z) = .ok i

end Sys2Proof

namespace Sys2Proof.Machine

/-! ### Invariants (10_state.md R49) -/

/-- R49 (b): `T.acc` is a multiple of 256 in 0..16128. -/
def Timer.Good (t : Timer) : Prop := t.acc % 256 = 0 ∧ t.acc ≤ 16128

/-- R49 (c) with R34 and R37: the position is below the size (0 when the size is 0), the size is that of the period
held, and the length counter is at most 256. -/
def Square.Good (q : Square) : Prop :=
  (0 < q.size → q.pos < q.size) ∧ (q.size = 0 → q.pos = 0) ∧ q.size = squareSize (squarePeriod q) ∧ q.len ≤ 256

/-- R49 (d): the LFSR is never zero, and within 7 bits in the 7-bit mode. -/
def Noise.Good (n : Noise) : Prop := n.lfsr ≠ 0 ∧ (n.m15 = false → n.lfsr.toNat ≤ 0x7F)

/-- R49 (e): `D.played <= 8192`. -/
def Pcm.Good (d : Pcm) : Prop := d.played ≤ 8192

/-- Every invariant of R49; (a) and (f) are in the types of `T.cnt` and `BANK`. The two memories keep their canonical
form. -/
def State.Inv (s : State) : Prop :=
  Memory.wf s.ram = true ∧ Memory.wf s.vram = true ∧ Timer.Good s.timer ∧ Square.Good s.sq0 ∧ Square.Good s.sq1 ∧
    Noise.Good s.noise ∧ Pcm.Good s.pcm

/-! ### Runs -/

/-- Apply one instruction `n` times, stopping at the first outcome that is no next state. -/
def applyTimes (i : Instr) : Nat → State → Host.Outcome State Fault Refusal
  | 0, s => .next s
  | n + 1, s =>
    match exec i s with
    | .next t => applyTimes i n t
    | .fault f => .fault f
    | .refused r => .refused r

/-- `n` steps of one square channel (44_sound_sample.md R190). -/
def squareSteps : Nat → Square → Square
  | 0, q => q
  | n + 1, q => squareSteps n (squareStep q).2

/-- The contributions of the first `n` steps of one square channel. -/
def squareOutputs : Nat → Square → List Nat
  | 0, _ => []
  | n + 1, q => (squareStep q).1 :: squareOutputs n (squareStep q).2

/-- `n` updates of the LFSR (44_sound_sample.md R194). -/
def lfsrUpdates (m15 : Bool) : Nat → BitVec 15 → BitVec 15
  | 0, x => x
  | n + 1, x => lfsrUpdates m15 n (lfsrUpdate m15 x)

/-! ### Views -/

/-- The state an outcome goes on in, if any. -/
def nextState : Host.Outcome State Fault Refusal → Option State
  | .next t => some t
  | .fault _ => none
  | .refused _ => none

/-- The diagnostic bit of a result (60_exceptions.md R213): 0 for the results that have none. -/
def Response.diag : Response → Bool
  | .byte _ d => d
  | .ack d => d
  | .sample _ d => d
  | .none => false
  | .nmi _ => false
  | .irq _ => false
  | .faulted _ => false

/-- The PCM fields that no rule reads, set to zero (44_sound_sample.md R197). -/
def Pcm.eraseUnread (d : Pcm) : Pcm := { d with bank := 0, left := false, right := false, freq := 0 }

/-- A state with the PCM fields that no rule reads set to zero. -/
def State.eraseUnread (s : State) : State := s.withPcm s.pcm.eraseUnread

end Sys2Proof.Machine
end

