-- ==== Sys2Proof/Certificates/Slice0/Obligations.lean ====
section
/-! DEFINITION. The statements for the provers, family by family: the encoding, READ, WRITE, the timer, the sound
registers, SAMPLE, faults and diagnostics, RESET, and the rules of the whole machine. -/

open Sys2Proof Sys2Proof.Machine

/-! ### Encoding -/

/-- Under a legal register map every well-formed instruction decodes from its own word (30_encoding.md R90 to R95). -/
def Obligations.EncodeThenDecodeGivesTheInstruction : Prop :=
  ∀ (c : Config) (i : Instr), c.legalMap = true → i.wellFormed c = true → decode c (encode c i) = .ok i

/-- Encoding what a word decodes to gives the word with its unused fields zero (30_encoding.md R92). -/
def Obligations.DecodeThenEncodeGivesTheCanonicalWord : Prop :=
  ∀ (c : Config) (w : TransactionWord) (i : Instr), decode c w = .ok i → encode c i = canonicalWord w

/-- What the decoder gives is well formed: a catch-all row only where no other row matches (30_encoding.md R95). -/
def Obligations.DecodedInstructionIsWellFormed : Prop :=
  ∀ (c : Config) (w : TransactionWord) (i : Instr), decode c w = .ok i → i.wellFormed c = true

/-- 30_encoding.md R92: unused fields are ignored, and only the reserved kind is refused. -/
def Obligations.UnusedFieldsAreIgnoredAndOnlyKindSevenIsRefused : Prop :=
  (∀ (c : Config) (w : TransactionWord), wordKind w = 0b111#3 ↔ decode c w = .error .reservedKind) ∧
  (∀ (c : Config) (w : TransactionWord), wordKind w ≠ 0b111#3 → ∃ i, decode c w = .ok i) ∧
  (∀ (c : Config) (a : Address) (z z' : Byte), decode c (makeWord 0b000 a z) = decode c (makeWord 0b000 a z')) ∧
  (∀ (c : Config) (k : BitVec 3) (a a' : Address) (z z' : Byte),
    k ≠ 0b000#3 → k ≠ 0b001#3 → decode c (makeWord k a z) = decode c (makeWord k a' z'))

/-- 20_memory.md R69: the top address bits select the region; outside the register window they select the row. -/
def Obligations.AddressBitsSelectTheRegion : Prop :=
  ∀ (c : Config) (v : Byte),
    (∀ a : BitVec 13, ReadIs c (0b000#3 ++ a) (.rdRam a) ∧ WriteIs c (0b000#3 ++ a) v (.wrRam a v)) ∧
    (∀ a : BitVec 12, ReadIs c (0b0010#4 ++ a) (decodeReadRegister c (0b0010#4 ++ a)) ∧
      WriteIs c (0b0010#4 ++ a) v (decodeWriteRegister c (0b0010#4 ++ a) v)) ∧
    (∀ a : BitVec 12, ReadIs c (0b0011#4 ++ a) (.rdUnmapped3 a) ∧ WriteIs c (0b0011#4 ++ a) v (.wrUnmapped3 a v)) ∧
    (∀ a : BitVec 13, ReadIs c (0b010#3 ++ a) (.rdVram a) ∧ WriteIs c (0b010#3 ++ a) v (.wrVram a v)) ∧
    (∀ a : BitVec 13, ReadIs c (0b011#3 ++ a) (.rdUnmapped6 a) ∧ WriteIs c (0b011#3 ++ a) v (.wrUnmapped6 a v)) ∧
    (∀ a : BitVec 14, ReadIs c (0b10#2 ++ a) (.rdRomBank a) ∧ WriteIs c (0b10#2 ++ a) v (.wrRomBank a v)) ∧
    (∀ a : BitVec 14, ReadIs c (0b11#2 ++ a) (.rdRomFixed a) ∧ WriteIs c (0b11#2 ++ a) v (.wrRomFixed a v))

/-- 92_eei_decisions.md D37, 30_encoding.md R94: in a legal map an access in the direction a register does not have falls
to the catch-all row. -/
def Obligations.WrongDirectionAccessIsTheCatchAllRow : Prop :=
  ∀ (c : Config) (b : RegBlock) (a : Address) (v : Byte), c.legalMap = true → c.claims b a = true →
    (b.readable = false → ReadIs c a (.rdRegUnknown (a.setWidth 12))) ∧
    (b.writable = false → WriteIs c a v (.wrRegOther (a.setWidth 12) v))

/-- The unknown addresses of the default map, as 40_bus_read.md R118 and 41_bus_write.md R139 list them (the defaults
are PRESUMED by the spec: log entry 3). -/
def Obligations.DefaultMapHasTheListedUnknownAddresses : Prop :=
  ∀ (a : BitVec 12) (v : Byte),
    ((Instr.rdRegUnknown a).wellFormed Config.default = true ↔
      (0x008 ≤ a.toNat ∧ a.toNat ≤ 0x01F) ∨ a.toNat = 0x021 ∨ a.toNat = 0x022 ∨ a.toNat = 0x026 ∨ 0x028 ≤ a.toNat) ∧
    ((Instr.wrRegOther a v).wellFormed Config.default = true ↔
      a.toNat = 0x00E ∨ a.toNat = 0x00F ∨ (0x01D ≤ a.toNat ∧ a.toNat ≤ 0x020) ∨ a.toNat = 0x024 ∨ a.toNat = 0x025 ∨
        a.toNat = 0x027 ∨ 0x02B ≤ a.toNat)

/-- Words of 95_test_vectors.md decode as listed there (section 2.1; 0x1201C80 in the programs of part 3), under the
default map, whose addresses are PRESUMED (log entry 3). -/
def Obligations.ListedWordsDecodeAsListed : Prop :=
  decode Config.default 0x0000000 = .ok (.rdRam 0) ∧
  decode Config.default 0x0FFFFAB = .ok (.rdRomFixed 0x3FFF) ∧
  decode Config.default 0x1202660 = .ok (.wrSysctl 0x60) ∧
  decode Config.default 0x1201C80 = .ok (.wrPcmR4 0x80) ∧
  decode Config.default 0x2ABCDEF = .ok .tick ∧
  decode Config.default 0x3000000 = .ok .frame ∧
  decode Config.default 0x4000000 = .ok .sample ∧
  decode Config.default 0x5000000 = .ok .takeIrq ∧
  decode Config.default 0x6000000 = .ok .reset ∧
  decode Config.default 0x7FFFFFF = .error .reservedKind

/-! ### A step -/

/-- A step applies the decoded instruction: the request is taken off the schedule and the input stands at its level (how
operations arrive is the model's choice, log entry 10). -/
def Obligations.StepRunsTheDecodedInstruction : Prop :=
  ∀ (s : State) (r : Request) (rest : List Request) (i : Instr),
    s.pending = r :: rest → decode s.cfg r.word = .ok i →
      step s = exec i ((s.withPending rest).withKeys r.keys)

/-- The block is passive (00_scope.md R6; how operations arrive is the model's choice, log entry 10): with nothing pending
a step changes nothing, and a word of the reserved kind is refused. -/
def Obligations.StepWithoutAnOperationChangesNothing : Prop :=
  (∀ s : State, s.pending = [] → step s = .next s) ∧
  (∀ (s : State) (r : Request) (rest : List Request),
    s.pending = r :: rest → wordKind r.word = 0b111#3 → step s = .refused .reservedKind)

/-- 30_encoding.md R103, R104 (the second address of `WR16` at 0xFFFF is the model's choice, log entry 20): the words
scheduled for a script spell, in order and with the input level of each, the
operations its lines stand for; `TICK n` and `SAMPLE n` repeat, `WR16` writes the low byte first, `KEYS` only sets the
level for the lines after it. -/
def Obligations.ScheduleSpellsTheScript : Prop :=
  (∀ (k : Byte) (ls : List ScriptLine),
    (scheduleOf k ls).map (fun r => (decodeOperation r.word, r.keys)) =
      (expandScript k ls).map (fun p => (.ok p.1, p.2))) ∧
  (∀ (k : Byte) (ls : List ScriptLine),
    (∀ o, expandScript k (.op o :: ls) = (o, k) :: expandScript k ls) ∧
    (∀ n, expandScript k (.ticks n :: ls) = List.replicate n (.tick, k) ++ expandScript k ls) ∧
    (∀ n, expandScript k (.samples n :: ls) = List.replicate n (.sample, k) ++ expandScript k ls) ∧
    (∀ (a : Address) (w : BitVec 16), expandScript k (.write16 a w :: ls) =
      (.write a (BitVec.ofNat 8 w.toNat), k) :: (.write (BitVec.ofNat 16 (a.toNat + 1)) (BitVec.ofNat 8 (w.toNat / 256)), k) ::
        expandScript k ls) ∧
    (∀ k', expandScript k (.keys k' :: ls) = expandScript k' ls))

/-! ### READ -/

/-- 40_bus_read.md R111, R119: a read of a memory gives the byte held, which is the one written last or else the open
initial contents, and changes nothing. -/
def Obligations.ReadsOfTheMemoriesReturnTheByteHeld : Prop :=
  ∀ (s : State) (a : BitVec 13),
    ReadIs s.cfg (0b000#3 ++ a) (.rdRam a) ∧ ReadIs s.cfg (0b010#3 ++ a) (.rdVram a) ∧
    exec (.rdRam a) s = .next (s.withOut (.byte (ramByte s a) false)) ∧
    exec (.rdVram a) s = .next (s.withOut (.byte (vramByte s a) false)) ∧
    (∀ b, Memory.read s.ram a.toNat = some b → ramByte s a = b) ∧
    (Memory.read s.ram a.toNat = none → ramByte s a = Config.initRam a) ∧
    (∀ b, Memory.read s.vram a.toNat = some b → vramByte s a = b) ∧
    (Memory.read s.vram a.toNat = none → vramByte s a = Config.initVram a)

/-- 20_memory.md R61, 41_bus_write.md R131: a store to RAM changes that byte and nothing else, and is read back. -/
def Obligations.RamWriteThenReadReturnsTheWrittenValue : Prop :=
  ∀ (s : State) (a : BitVec 13) (v : Byte), ∃ t,
    WriteIs s.cfg (0b000#3 ++ a) v (.wrRam a v) ∧ exec (.wrRam a v) s = .next t ∧ t.out = .ack false ∧
    (∀ b, ramByte t b = if b = a then v else ramByte s b) ∧ (t.withRam s.ram).withOut s.out = s ∧
    (∀ b, ReadIs s.cfg (0b000#3 ++ b) (.rdRam b) ∧
      exec (.rdRam b) t = .next (t.withOut (.byte (if b = a then v else ramByte s b) false)))

/-- 20_memory.md R63, 41_bus_write.md R137: the same of VRAM. -/
def Obligations.VramWriteThenReadReturnsTheWrittenValue : Prop :=
  ∀ (s : State) (a : BitVec 13) (v : Byte), ∃ t,
    WriteIs s.cfg (0b010#3 ++ a) v (.wrVram a v) ∧ exec (.wrVram a v) s = .next t ∧ t.out = .ack false ∧
    (∀ b, vramByte t b = if b = a then v else vramByte s b) ∧ (t.withVram s.vram).withOut s.out = s ∧
    (∀ b, ReadIs s.cfg (0b010#3 ++ b) (.rdVram b) ∧
      exec (.rdVram b) t = .next (t.withOut (.byte (if b = a then v else vramByte s b) false)))

/-- 40_bus_read.md R112, 41_bus_write.md R132: an address of the LCD block selects the register `a mod 4`, for reads and
writes alike, and a write changes that register alone. -/
def Obligations.LcdBlockSelectsTheRegisterModuloFour : Prop :=
  ∀ (s : State) (a : Address) (v : Byte), s.cfg.legalMap = true → s.cfg.claims .lcd a = true →
    ReadIs s.cfg a (.rdLcd (BitVec.ofNat 3 (a.toNat - s.cfg.aLcd.toNat))) ∧
    WriteIs s.cfg a v (.wrLcd (BitVec.ofNat 3 (a.toNat - s.cfg.aLcd.toNat)) v) ∧
    exec (.rdLcd (BitVec.ofNat 3 (a.toNat - s.cfg.aLcd.toNat))) s =
      .next (s.withOut (.byte (if a.toNat % 4 = 0 then s.lcd.hsize else if a.toNat % 4 = 1 then s.lcd.vsize
        else if a.toNat % 4 = 2 then s.lcd.xscroll else s.lcd.yscroll) false)) ∧
    exec (.wrLcd (BitVec.ofNat 3 (a.toNat - s.cfg.aLcd.toNat)) v) s =
      .next ((s.withLcd (if a.toNat % 4 = 0 then { s.lcd with hsize := v }
        else if a.toNat % 4 = 1 then { s.lcd with vsize := v }
        else if a.toNat % 4 = 2 then { s.lcd with xscroll := v } else { s.lcd with yscroll := v })).withOut (.ack false))

/-- 40_bus_read.md R113: the controller register reads the held buttons active low and changes nothing. -/
def Obligations.ControllerReadIsActiveLow : Prop :=
  ∀ s : State, (s.cfg.legalMap = true → ReadIs s.cfg s.cfg.aCtrl .rdCtrl) ∧
    ∃ b : Byte, exec .rdCtrl s = .next (s.withOut (.byte b false)) ∧
      ∀ i, i < 8 → b.getLsbD i = !s.keys.getLsbD i

/-- 40_bus_read.md R114 to R117: what the four timer and status registers read, and that two of them clear `T.en`. -/
def Obligations.TimerAndStatusReads : Prop :=
  ∀ s : State,
    (s.cfg.legalMap = true → ReadIs s.cfg s.cfg.aTimer .rdTimer ∧ ReadIs s.cfg s.cfg.aTack .rdTack ∧
      ReadIs s.cfg s.cfg.aAack .rdAack ∧ ReadIs s.cfg s.cfg.aIrqstat .rdIrqstat) ∧
    exec .rdTimer s = .next (s.withOut (.byte s.timer.cnt false)) ∧
    exec .rdTack s = .next ((s.withTimer { s.timer with en := false }).withOut (.byte 0x01 false)) ∧
    exec .rdAack s = .next (s.withOut (.byte 0x00 false)) ∧
    exec .rdIrqstat s = .next ((s.withTimer { s.timer with en := false }).withOut (.byte 0x03 false))

/-- 40_bus_read.md R118, R122: an unknown register or an unmapped address reads 0xFF with the diagnostic. -/
def Obligations.UnknownAndUnmappedReadsGiveFFWithDiagnostic : Prop :=
  ∀ (s : State) (a : BitVec 12) (b : BitVec 13),
    ((∀ r : RegBlock, r.readable = true → s.cfg.claims r (0x2#4 ++ a) = false) →
      ReadIs s.cfg (0x2#4 ++ a) (.rdRegUnknown a)) ∧
    ReadIs s.cfg (0x3#4 ++ a) (.rdUnmapped3 a) ∧ ReadIs s.cfg (0b011#3 ++ b) (.rdUnmapped6 b) ∧
    exec (.rdRegUnknown a) s = .next (s.withOut (.byte 0xFF true)) ∧
    exec (.rdUnmapped3 a) s = .next (s.withOut (.byte 0xFF true)) ∧
    exec (.rdUnmapped6 b) s = .next (s.withOut (.byte 0xFF true))

/-- 40_bus_read.md R120, 20_memory.md R65, R68: the switchable window reads the ROM through `BANK`; beyond the end of the
ROM the fault is reported (in the result of a next state: the model's choice, log entry 1) and nothing else changes. -/
def Obligations.SwitchableWindowReadsThroughTheBank : Prop :=
  ∀ (s : State) (a : BitVec 14), ReadIs s.cfg (0b10#2 ++ a) (.rdRomBank a) ∧
    (s.bank.toNat * 16384 + a.toNat < s.cfg.rom.size →
      exec (.rdRomBank a) s =
        .next (s.withOut (.byte (romByte s.cfg.rom (s.bank.toNat * 16384 + a.toNat)) false))) ∧
    (s.cfg.rom.size ≤ s.bank.toNat * 16384 + a.toNat →
      exec (.rdRomBank a) s =
        .next (s.withOut (.faulted (.romIndexOutOfRange (s.bank.toNat * 16384 + a.toNat)))))

/-- 40_bus_read.md R121, 20_memory.md R66: the fixed window reads the last 16384 bytes, whatever `BANK` holds, and never
faults; it equals the switchable window at bank 0 of a 16384-byte ROM. -/
def Obligations.FixedWindowReadsTheLastBank : Prop :=
  ∀ (s : State) (a : BitVec 14), ReadIs s.cfg (0b11#2 ++ a) (.rdRomFixed a) ∧
    s.cfg.rom.size - 16384 + a.toNat < s.cfg.rom.size ∧
    exec (.rdRomFixed a) s = .next (s.withOut (.byte (romByte s.cfg.rom (s.cfg.rom.size - 16384 + a.toNat)) false)) ∧
    (∀ b : BitVec 3, exec (.rdRomFixed a) (s.withBank b) =
      .next ((s.withBank b).withOut (.byte (romByte s.cfg.rom (s.cfg.rom.size - 16384 + a.toNat)) false))) ∧
    (s.cfg.rom.size = 16384 → exec (.rdRomBank a) (s.withBank 0) = exec (.rdRomFixed a) (s.withBank 0))

/-- 40_bus_read.md R110, 20_memory.md R73: a READ changes no latch, gate, memory or sound state; the two acknowledging
reads clear `T.en`, and no other READ changes anything but the result (a READ that faults is a next state here: log entry 1). -/
def Obligations.ReadsChangeNothingButTheEnabledFlag : Prop :=
  ∀ (i : Instr) (s t : State), i.isRead = true → exec i s = .next t →
    t = (s.withTimer { s.timer with en := t.timer.en }).withOut t.out ∧
    (t.timer.en = s.timer.en ∨ (t.timer.en = false ∧ (i = .rdTack ∨ i = .rdIrqstat)))

/-- 20_memory.md R75: what a PCM fetch does at an address is what a CPU READ of it does: the same byte, diagnostic and
side effects, or the same fault. That the READ which faults answers a next state reporting it is the model's choice (log
entry 1). -/
def Obligations.BusReadIsTheReadOperation : Prop :=
  ∀ (s : State) (a : Address), ∃ i, ReadIs s.cfg a i ∧ i.isRead = true ∧
    (∀ b d t, busRead s a = .done b d t → exec i s = .next (t.withOut (.byte b d))) ∧
    (∀ f, busRead s a = .fault f → exec i s = .next (s.withOut (.faulted f)))

/-! ### WRITE -/

/-- 41_bus_write.md R134: a system-control write replaces the bank, the two enables and the prescaler select, and nothing
else. -/
def Obligations.SystemControlWriteReplacesAllFourFields : Prop :=
  ∀ (s : State) (v : Byte),
    (s.cfg.legalMap = true → WriteIs s.cfg s.cfg.aSysctl v (.wrSysctl v)) ∧
    exec (.wrSysctl v) s =
      .next ((((s.withBank (BitVec.ofNat 3 (v.toNat / 32))).withNmiEn (v.getLsbD 0)).withTimer
        { s.timer with
          en := if v &&& s.cfg.sysctlIrqMask = 0x02#8 then true else false
          slow := v.getLsbD s.cfg.sysctlPrescBit.val }).withOut (.ack false)) ∧
    (s.cfg.sysctlIrqMask = 0x03#8 → ∀ t, exec (.wrSysctl v) s = .next t →
      (t.timer.en = true ↔ v.toNat % 4 = 2) ∧ (t.nmiEn = true ↔ v.toNat % 2 = 1) ∧
      ¬ (t.timer.en = true ∧ t.nmiEn = true))

/-- 41_bus_write.md R135: a timer-value write sets the counter and clears the accumulator; 0 written to an enabled timer
raises the interrupt and clears the enabled flag. -/
def Obligations.TimerValueWriteSetsTheCounterAndZeroFires : Prop :=
  ∀ (s : State) (v : Byte),
    (s.cfg.legalMap = true → WriteIs s.cfg s.cfg.aTimer v (.wrTimer v)) ∧
    (v = 0 ∧ s.timer.en = true →
      exec (.wrTimer v) s = .next (((s.withTimer { s.timer with cnt := 0, acc := 0, en := false }).withIrqPend
        true).withOut (.ack false))) ∧
    (¬ (v = 0 ∧ s.timer.en = true) →
      exec (.wrTimer v) s = .next ((s.withTimer { s.timer with cnt := v, acc := 0 }).withOut (.ack false)))

/-- 41_bus_write.md R133, R138, 20_memory.md R67: writes to the reserved ranges and to both ROM windows are discarded with
no diagnostic; the reserved ranges have no read handler. -/
def Obligations.ReservedAndRomWritesAreDiscardedSilently : Prop :=
  ∀ (s : State) (v : Byte) (a : BitVec 2) (b : BitVec 1) (r : BitVec 14),
    (s.cfg.legalMap = true →
      WriteIs s.cfg (s.cfg.registerAt .vdma a.toNat) v (.wrVdmaA a v) ∧
      WriteIs s.cfg (s.cfg.registerAt .vdma (4 + b.toNat)) v (.wrVdmaB b v) ∧
      WriteIs s.cfg (s.cfg.registerAt .link 0) v (.wrLink0 v) ∧
      WriteIs s.cfg (s.cfg.registerAt .link 1) v (.wrLink1 v) ∧
      (∀ x : Address, s.cfg.claims .vdma x = true ∨ s.cfg.claims .link x = true →
        ReadIs s.cfg x (.rdRegUnknown (x.setWidth 12)))) ∧
    WriteIs s.cfg (0b10#2 ++ r) v (.wrRomBank r v) ∧ WriteIs s.cfg (0b11#2 ++ r) v (.wrRomFixed r v) ∧
    exec (.wrVdmaA a v) s = .next (s.withOut (.ack false)) ∧
    exec (.wrVdmaB b v) s = .next (s.withOut (.ack false)) ∧
    exec (.wrLink0 v) s = .next (s.withOut (.ack false)) ∧
    exec (.wrLink1 v) s = .next (s.withOut (.ack false)) ∧
    exec (.wrRomBank r v) s = .next (s.withOut (.ack false)) ∧
    exec (.wrRomFixed r v) s = .next (s.withOut (.ack false))

/-- 41_bus_write.md R139, R140: writes to unknown registers and unmapped ranges change nothing and report the
diagnostic. -/
def Obligations.UnknownAndUnmappedWritesReportTheDiagnostic : Prop :=
  ∀ (s : State) (v : Byte) (a : BitVec 12) (b : BitVec 13),
    ((∀ r : RegBlock, r.writable = true → s.cfg.claims r (0x2#4 ++ a) = false) →
      WriteIs s.cfg (0x2#4 ++ a) v (.wrRegOther a v)) ∧
    WriteIs s.cfg (0x3#4 ++ a) v (.wrUnmapped3 a v) ∧ WriteIs s.cfg (0b011#3 ++ b) v (.wrUnmapped6 b v) ∧
    exec (.wrRegOther a v) s = .next (s.withOut (.ack true)) ∧
    exec (.wrUnmapped3 a v) s = .next (s.withOut (.ack true)) ∧
    exec (.wrUnmapped6 b v) s = .next (s.withOut (.ack true))

/-! ### The interrupt timer controller -/

/-- 42_timer_irq.md R150: what one TICK does, in each of its four cases; and 64 slow ticks make one decrement. -/
def Obligations.TickFiresOrCounts : Prop :=
  ∀ s : State, KindIs s.cfg 0b010 .tick ∧
    (s.timer.en = true ∧ s.timer.cnt = 0 →
      exec .tick s = .next (((s.withTimer { s.timer with en := false }).withIrqPend true).withOut .none)) ∧
    (¬ (s.timer.en = true ∧ s.timer.cnt = 0) → s.timer.slow = false →
      exec .tick s =
        .next ((s.withTimer { s.timer with cnt := BitVec.ofNat 8 (s.timer.cnt.toNat + 255) }).withOut .none)) ∧
    (¬ (s.timer.en = true ∧ s.timer.cnt = 0) → s.timer.slow = true → s.timer.acc + 256 < 16384 →
      exec .tick s = .next ((s.withTimer { s.timer with acc := s.timer.acc + 256 }).withOut .none)) ∧
    (¬ (s.timer.en = true ∧ s.timer.cnt = 0) → s.timer.slow = true → 16384 ≤ s.timer.acc + 256 →
      exec .tick s =
        .next ((s.withTimer { s.timer with cnt := BitVec.ofNat 8 (s.timer.cnt.toNat + 255), acc := 0 }).withOut
          .none)) ∧
    (¬ (s.timer.en = true ∧ s.timer.cnt = 0) → s.timer.slow = true → s.timer.acc = 0 →
      applyTimes .tick 64 s =
        .next ((s.withTimer { s.timer with cnt := BitVec.ofNat 8 (s.timer.cnt.toNat + 255) }).withOut .none))

/-- 42_timer_irq.md R151: an enabled timer to which `N` is written reaches 0 on tick `N` (fast) or `64*N` (slow) and
raises the interrupt on the tick after; `N = 0` raises it at the write; after RESET an enable raises it on the first
tick. -/
def Obligations.TimerFiresOneTickAfterReachingZero : Prop :=
  ∀ (s : State) (v : Byte),
    (s.timer.en = true → ∃ u, exec (.wrTimer v) s = .next u ∧
      (v = 0 → u.irqPend = true ∧ u.timer.en = false) ∧
      (v ≠ 0 → s.timer.slow = false →
        (∀ k, k ≤ v.toNat → ∃ t, applyTimes .tick k u = .next t ∧ t.timer.cnt.toNat = v.toNat - k ∧
          t.timer.en = true ∧ t.irqPend = s.irqPend) ∧
        ∃ t, applyTimes .tick (v.toNat + 1) u = .next t ∧ t.timer.cnt = 0 ∧ t.timer.en = false ∧ t.irqPend = true) ∧
      (v ≠ 0 → s.timer.slow = true →
        (∀ k, k ≤ 64 * v.toNat → ∃ t, applyTimes .tick k u = .next t ∧ t.timer.cnt.toNat = v.toNat - k / 64 ∧
          t.timer.en = true ∧ t.irqPend = s.irqPend) ∧
        ∃ t, applyTimes .tick (64 * v.toNat + 1) u = .next t ∧ t.timer.cnt = 0 ∧ t.timer.en = false ∧
          t.irqPend = true)) ∧
    (0x02#8 &&& s.cfg.sysctlIrqMask = 0x02#8 →
      ∃ r u t, exec .reset s = .next r ∧ exec (.wrSysctl 0x02) r = .next u ∧ exec .tick u = .next t ∧
        t.irqPend = true ∧ t.timer.en = false)

/-- 42_timer_irq.md R152: while the timer is disabled no number of ticks raises a request. -/
def Obligations.DisabledTimerNeverFires : Prop :=
  ∀ (n : Nat) (s : State), s.timer.en = false →
    ∃ t, applyTimes .tick n s = .next t ∧ t.timer.en = false ∧ t.irqPend = s.irqPend

/-- 42_timer_irq.md R153: FRAME returns the NMI gate and changes no state. -/
def Obligations.FrameReturnsTheNmiGate : Prop :=
  ∀ s : State, KindIs s.cfg 0b011 .frame ∧ exec .frame s = .next (s.withOut (.nmi s.nmiEn))

/-- 42_timer_irq.md R154: TAKEIRQ returns the latch and clears it; taken again it returns 0. -/
def Obligations.TakeIrqReturnsAndClearsTheLatch : Prop :=
  ∀ s : State, KindIs s.cfg 0b101 .takeIrq ∧
    exec .takeIrq s = .next ((s.withIrqPend false).withOut (.irq s.irqPend)) ∧
    exec .takeIrq (s.withIrqPend false) = .next ((s.withIrqPend false).withOut (.irq false))

/-- 42_timer_irq.md R152, 10_state.md R28: the events that change `T.en`. Only a system-control write whose masked value
is 2 sets it; besides such a write it is cleared by the two firings, by the two acknowledging reads (of the CPU, or of the
PCM streamer inside SAMPLE and a trigger write) and by RESET. -/
def Obligations.EnabledFlagChangesOnlyByTheListedEvents : Prop :=
  ∀ (i : Instr) (s t : State), exec i s = .next t →
    (s.timer.en = false → t.timer.en = true → ∃ v, i = .wrSysctl v ∧ v &&& s.cfg.sysctlIrqMask = 0x02#8) ∧
    (s.timer.en = true → t.timer.en = false →
      (∃ v, i = .wrSysctl v ∧ v &&& s.cfg.sysctlIrqMask ≠ 0x02#8) ∨
      (i = .tick ∧ s.timer.cnt = 0 ∧ t.irqPend = true) ∨ (i = .wrTimer 0 ∧ t.irqPend = true) ∨
      i = .rdTack ∨ i = .rdIrqstat ∨ i = .reset ∨
      (i = .sample ∧ (ReadIs s.cfg (s.pcm.cur + 1) .rdTack ∨ ReadIs s.cfg (s.pcm.cur + 1) .rdIrqstat)) ∨
      (∃ v, i = .wrPcmR4 v ∧
        (ReadIs s.cfg (s.pcm.ahi ++ s.pcm.alo) .rdTack ∨ ReadIs s.cfg (s.pcm.ahi ++ s.pcm.alo) .rdIrqstat)))

/-- 10_state.md R32, 60_exceptions.md R214: the request latch is set only by the two firing events, each of which clears
`T.en`, and cleared only by TAKEIRQ and RESET. -/
def Obligations.RequestLatchIsSetByFiringAndClearedByTaking : Prop :=
  ∀ (i : Instr) (s t : State), exec i s = .next t →
    (s.irqPend = false → t.irqPend = true →
      s.timer.en = true ∧ t.timer.en = false ∧ ((i = .tick ∧ s.timer.cnt = 0) ∨ i = .wrTimer 0)) ∧
    (s.irqPend = true → t.irqPend = false → i = .takeIrq ∨ i = .reset)

/-- 10_state.md R26, R27: `BANK` and `NMI_EN` change only by a system-control write and by RESET. -/
def Obligations.BankAndNmiGateChangeOnlyBySystemControl : Prop :=
  ∀ (i : Instr) (s t : State), exec i s = .next t → t.bank ≠ s.bank ∨ t.nmiEn ≠ s.nmiEn →
    i = .reset ∨ ∃ v, i = .wrSysctl v ∧ t.bank = v.extractLsb' 5 3 ∧ t.nmiEn = v.getLsbD 0

/-! ### Sound registers -/

/-- 43_sound_registers.md R166 to R170: the four registers of each square channel. A period write recomputes the size
from the period held and restarts the phase; nothing outside the channel changes. -/
def Obligations.SquareRegisterWrites : Prop :=
  ∀ (s : State) (v : Byte),
    (s.cfg.legalMap = true →
      WriteIs s.cfg (s.cfg.registerAt .sq0 0) v (.wrSq0R0 v) ∧ WriteIs s.cfg (s.cfg.registerAt .sq0 1) v (.wrSq0R1 v) ∧
      WriteIs s.cfg (s.cfg.registerAt .sq0 2) v (.wrSq0R2 v) ∧ WriteIs s.cfg (s.cfg.registerAt .sq0 3) v (.wrSq0R3 v) ∧
      WriteIs s.cfg (s.cfg.registerAt .sq1 0) v (.wrSq1R0 v) ∧ WriteIs s.cfg (s.cfg.registerAt .sq1 1) v (.wrSq1R1 v) ∧
      WriteIs s.cfg (s.cfg.registerAt .sq1 2) v (.wrSq1R2 v) ∧ WriteIs s.cfg (s.cfg.registerAt .sq1 3) v (.wrSq1R3 v)) ∧
    exec (.wrSq0R0 v) s = .next ((s.withSq0 { s.sq0 with
      plo := v, size := (44100 * (s.sq0.phi.toNat * 256 + v.toNat + 1) * 32) / 4000000, pos := 0 }).withOut
        (.ack false)) ∧
    exec (.wrSq0R1 v) s = .next ((s.withSq0 { s.sq0 with
      phi := BitVec.ofNat 3 v.toNat,
      size := (44100 * (v.toNat % 8 * 256 + s.sq0.plo.toNat + 1) * 32) / 4000000, pos := 0 }).withOut (.ack false)) ∧
    exec (.wrSq0R2 v) s = .next ((s.withSq0 { s.sq0 with
      en := v.getLsbD 6, duty := BitVec.ofNat 2 (v.toNat / 16), vol := BitVec.ofNat 4 v.toNat }).withOut
        (.ack false)) ∧
    exec (.wrSq0R3 v) s = .next ((s.withSq0 { s.sq0 with len := v.toNat + 1 }).withOut (.ack false)) ∧
    exec (.wrSq1R0 v) s = .next ((s.withSq1 { s.sq1 with
      plo := v, size := (44100 * (s.sq1.phi.toNat * 256 + v.toNat + 1) * 32) / 4000000, pos := 0 }).withOut
        (.ack false)) ∧
    exec (.wrSq1R1 v) s = .next ((s.withSq1 { s.sq1 with
      phi := BitVec.ofNat 3 v.toNat,
      size := (44100 * (v.toNat % 8 * 256 + s.sq1.plo.toNat + 1) * 32) / 4000000, pos := 0 }).withOut (.ack false)) ∧
    exec (.wrSq1R2 v) s = .next ((s.withSq1 { s.sq1 with
      en := v.getLsbD 6, duty := BitVec.ofNat 2 (v.toNat / 16), vol := BitVec.ofNat 4 v.toNat }).withOut
        (.ack false)) ∧
    exec (.wrSq1R3 v) s = .next ((s.withSq1 { s.sq1 with len := v.toNat + 1 }).withOut (.ack false))

/-- 43_sound_registers.md R166: the size of a period is `(441 * (period + 1)) div 1250`, zero exactly for the periods 0
and 1, and at most 722. -/
def Obligations.SquareSizeOfAPeriod : Prop :=
  ∀ q : Square, squarePeriod q ≤ 2047 ∧
    squareSize (squarePeriod q) = (441 * (squarePeriod q + 1)) / 1250 ∧
    (squareSize (squarePeriod q) = 0 ↔ squarePeriod q ≤ 1) ∧ squareSize (squarePeriod q) ≤ 722

/-- 43_sound_registers.md R171 to R173: the three noise registers; register 2 always reseeds the LFSR to all-ones at the
width it selects and restarts the phase. -/
def Obligations.NoiseRegisterWrites : Prop :=
  ∀ (s : State) (v : Byte),
    (s.cfg.legalMap = true →
      WriteIs s.cfg (s.cfg.registerAt .noise 0) v (.wrNoiseR0 v) ∧
      WriteIs s.cfg (s.cfg.registerAt .noise 1) v (.wrNoiseR1 v) ∧
      WriteIs s.cfg (s.cfg.registerAt .noise 2) v (.wrNoiseR2 v)) ∧
    exec (.wrNoiseR0 v) s = .next ((s.withNoise { s.noise with
      freq := BitVec.ofNat 4 (v.toNat / 16), vol := BitVec.ofNat 4 v.toNat }).withOut (.ack false)) ∧
    exec (.wrNoiseR1 v) s = .next ((s.withNoise { s.noise with len := v }).withOut (.ack false)) ∧
    exec (.wrNoiseR2 v) s = .next ((s.withNoise { s.noise with
      en := v.getLsbD s.cfg.noiseEnBit.val, left := v.getLsbD s.cfg.noiseLeftBit.val,
      right := v.getLsbD s.cfg.noiseRightBit.val, cont := v.getLsbD s.cfg.noiseContBit.val,
      m15 := v.getLsbD s.cfg.noiseM15Bit.val,
      lfsr := if v.getLsbD s.cfg.noiseM15Bit.val then 0x7FFF#15 else 0x007F#15, pos := 0 }).withOut (.ack false))

/-- 43_sound_registers.md R174 to R177: the first four PCM registers store their fields and do nothing else. -/
def Obligations.PcmRegisterWrites : Prop :=
  ∀ (s : State) (v : Byte),
    (s.cfg.legalMap = true →
      WriteIs s.cfg (s.cfg.registerAt .pcm 0) v (.wrPcmR0 v) ∧ WriteIs s.cfg (s.cfg.registerAt .pcm 1) v (.wrPcmR1 v) ∧
      WriteIs s.cfg (s.cfg.registerAt .pcm 2) v (.wrPcmR2 v) ∧
      WriteIs s.cfg (s.cfg.registerAt .pcm 3) v (.wrPcmR3 v)) ∧
    exec (.wrPcmR0 v) s = .next ((s.withPcm { s.pcm with alo := v }).withOut (.ack false)) ∧
    exec (.wrPcmR1 v) s = .next ((s.withPcm { s.pcm with ahi := v }).withOut (.ack false)) ∧
    exec (.wrPcmR2 v) s = .next ((s.withPcm { s.pcm with len := v }).withOut (.ack false)) ∧
    exec (.wrPcmR3 v) s = .next ((s.withPcm { s.pcm with
      bank := v.extractLsb' s.cfg.pcmBankLsb.val 3, left := v.getLsbD s.cfg.pcmLeftBit.val,
      right := v.getLsbD s.cfg.pcmRightBit.val, freq := v.extractLsb' s.cfg.pcmFreqLsb.val 2 }).withOut (.ack false))

/-- 43_sound_registers.md R178: the trigger register, in each of its cases. A fresh trigger restarts the playback and
fetches the first byte through the bus; a fetch beyond the ROM leaves everything as it was and reports the fault (log entry 1). -/
def Obligations.PcmTriggerWrite : Prop :=
  ∀ (s : State) (v : Byte),
    (s.cfg.legalMap = true → WriteIs s.cfg (s.cfg.registerAt .pcm 4) v (.wrPcmR4 v)) ∧
    (v.toNat < 128 → exec (.wrPcmR4 v) s = .next (s.withOut (.ack false))) ∧
    (128 ≤ v.toNat → s.pcm.trig = true → 0 < s.pcm.played →
      exec (.wrPcmR4 v) s = .next (s.withOut (.ack false))) ∧
    (128 ≤ v.toNat → ¬ (s.pcm.trig = true ∧ 0 < s.pcm.played) →
      (∀ b d t, busRead s (BitVec.ofNat 16 (s.pcm.ahi.toNat * 256 + s.pcm.alo.toNat)) = .done b d t →
        exec (.wrPcmR4 v) s = .next ((t.withPcm { s.pcm with
          played := 0, cur := BitVec.ofNat 16 (s.pcm.ahi.toNat * 256 + s.pcm.alo.toNat), sel := false, byte := b,
          trig := true }).withOut (.ack d))) ∧
      (∀ f, busRead s (BitVec.ofNat 16 (s.pcm.ahi.toNat * 256 + s.pcm.alo.toNat)) = .fault f →
        exec (.wrPcmR4 v) s = .next (s.withOut (.faulted f))))

/-! ### SAMPLE -/

/-- 44_sound_sample.md R190, R191: one step of a square channel. -/
def Obligations.SquareStepFollowsItsRule : Prop :=
  ∀ q : Square,
    (q.en = false ∨ q.size = 0 → squareStep q = (0, q)) ∧
    (q.en = true → 0 < q.size →
      (squareStep q).1 =
        (if q.pos < (if q.duty = 0 then q.size / 8 else if q.duty = 1 then q.size / 4 else if q.duty = 2 then q.size / 2
          else (3 * q.size) / 4) then q.vol.toNat else 0) ∧
      (q.pos + 1 < q.size → (squareStep q).2 = { q with pos := q.pos + 1 }) ∧
      (q.size ≤ q.pos + 1 → 1 < q.len → (squareStep q).2 = { q with pos := 0, len := q.len - 1 }) ∧
      (q.size ≤ q.pos + 1 → q.len ≤ 1 → (squareStep q).2 = { q with pos := 0, len := 0, en := false }))

/-- 44_sound_sample.md R192 (b), (c): a channel enabled at the start of its waveform plays exactly `max(len, 1)` whole
cycles and then disables itself. -/
def Obligations.SquareChannelPlaysExactlyItsLength : Prop :=
  ∀ q : Square, q.en = true → 1 ≤ q.size → q.pos = 0 →
    (∀ k, k < max q.len 1 * q.size → (squareSteps k q).en = true) ∧
    squareSteps (max q.len 1 * q.size) q = { q with en := false, len := 0, pos := 0 }

/-- 44_sound_sample.md R191: in one waveform cycle the channel outputs its volume for the first `thr` samples and 0 for
the others. -/
def Obligations.SquareCycleIsHighThenLow : Prop :=
  ∀ q : Square, q.en = true → 1 ≤ q.size → q.pos = 0 →
    squareThreshold q.duty q.size ≤ q.size ∧
    squareOutputs q.size q =
      List.replicate (squareThreshold q.duty q.size) q.vol.toNat ++
        List.replicate (q.size - squareThreshold q.duty q.size) 0

/-- 44_sound_sample.md R193: one step of the noise channel. -/
def Obligations.NoiseStepFollowsItsRule : Prop :=
  ∀ (c : Config) (n : Noise),
    (n.en = false → noiseStep c n = ((0, 0), n)) ∧
    (n.en = true →
      (n.pos + 1 < max 1 (((c.noiseDiv[n.freq.toNat]'n.freq.isLt) * 44100) / 4000000) →
        (noiseStep c n).2 = { n with pos := n.pos + 1 }) ∧
      (max 1 (((c.noiseDiv[n.freq.toNat]'n.freq.isLt) * 44100) / 4000000) ≤ n.pos + 1 →
        (noiseStep c n).2 = { n with
          pos := 0, lfsr := lfsrUpdate n.m15 n.lfsr,
          len := if n.cont = true ∨ n.len = 0 then n.len else BitVec.ofNat 8 (n.len.toNat - 1),
          en := if n.cont = true ∨ 1 < n.len.toNat then true else false }) ∧
      (noiseStep c n).1 =
        (let m := (noiseStep c n).2
         let out := if m.en = true ∧ m.lfsr.toNat % 2 = 1 then m.vol.toNat else 0
         (if m.left = true then out else 0, if m.right = true then out else 0)))

/-- 44_sound_sample.md R194: one update of the LFSR, as numbers. -/
def Obligations.LfsrUpdateFollowsItsRule : Prop :=
  ∀ (m15 : Bool) (x : BitVec 15),
    (x.getLsbD 0 = x.getLsbD 1 → (lfsrShift m15 x).toNat = x.toNat / 2) ∧
    (x.getLsbD 0 ≠ x.getLsbD 1 → m15 = true → (lfsrShift m15 x).toNat = x.toNat / 2 + 0x4000) ∧
    (x.getLsbD 0 ≠ x.getLsbD 1 → m15 = false → (lfsrShift m15 x).toNat = (x.toNat / 2 % 128) ||| 0x40) ∧
    (lfsrShift m15 x ≠ 0 → lfsrUpdate m15 x = lfsrShift m15 x) ∧
    (lfsrShift m15 x = 0 → lfsrUpdate m15 x = if m15 then 0x7FFF#15 else 0x007F#15)

/-- 44_sound_sample.md R195 (c), (d): from a non-zero value the guard against zero is never taken, however many updates
are made, and the value stays in range. -/
def Obligations.LfsrNeverReachesZero : Prop :=
  ∀ (m15 : Bool) (n : Nat) (x : BitVec 15), x ≠ 0 → (m15 = false → x.toNat ≤ 0x7F) →
    lfsrShift m15 (lfsrUpdates m15 n x) ≠ 0 ∧ lfsrUpdates m15 n x ≠ 0 ∧
    (m15 = false → (lfsrUpdates m15 n x).toNat ≤ 0x7F)

/-- 44_sound_sample.md R198: SAMPLE without a fetch (no playback, the end of one, or a high nibble) advances the two
square channels and the noise channel by one step each and returns the mix. -/
def Obligations.SampleMixesTheFourChannels : Prop :=
  ∀ (s : State) (d : Nat) (p : Pcm),
    ((s.pcm.trig = false ∧ d = 0 ∧ p = s.pcm) ∨
     (s.pcm.trig = true ∧ (if s.pcm.len = 0 then 4096 else s.pcm.len.toNat * 16) * 2 ≤ s.pcm.played ∧ d = 0 ∧
       p = { s.pcm with trig := false }) ∨
     (s.pcm.trig = true ∧ s.pcm.played < (if s.pcm.len = 0 then 4096 else s.pcm.len.toNat * 16) * 2 ∧
       s.pcm.sel = false ∧ d = s.pcm.byte.toNat / 16 ∧
       p = { s.pcm with sel := true, played := s.pcm.played + 1 })) →
    KindIs s.cfg 0b100 .sample ∧
    exec .sample s = .next (((((s.withSq0 (squareStep s.sq0).2).withSq1 (squareStep s.sq1).2).withNoise
      (noiseStep s.cfg s.noise).2).withPcm p).withOut (.sample (BitVec.ofNat 16
        ((d + (((squareStep s.sq0).1 + (squareStep s.sq1).1 + (noiseStep s.cfg s.noise).1.1) +
          ((squareStep s.sq0).1 + (squareStep s.sq1).1 + (noiseStep s.cfg s.noise).1.2)) / 2) * 256)) false))

/-- 44_sound_sample.md R196, R198: SAMPLE with a low nibble emits it, advances the cursor (wrapping at 0xFFFF) and fetches
the next byte through the bus; a fetch beyond the ROM cancels the whole SAMPLE and reports the fault (log
entry 1). -/
def Obligations.SampleWithAFetchReadsTheNextByte : Prop :=
  ∀ s : State, s.pcm.trig = true → s.pcm.sel = true →
    s.pcm.played < (if s.pcm.len = 0 then 4096 else s.pcm.len.toNat * 16) * 2 →
    (∀ b g t, busRead s (BitVec.ofNat 16 (s.pcm.cur.toNat + 1)) = .done b g t →
      exec .sample s = .next (((((t.withSq0 (squareStep s.sq0).2).withSq1 (squareStep s.sq1).2).withNoise
        (noiseStep s.cfg s.noise).2).withPcm { s.pcm with
          sel := false, cur := BitVec.ofNat 16 (s.pcm.cur.toNat + 1), byte := b,
          played := s.pcm.played + 1 }).withOut (.sample (BitVec.ofNat 16
            ((s.pcm.byte.toNat % 16 +
              (((squareStep s.sq0).1 + (squareStep s.sq1).1 + (noiseStep s.cfg s.noise).1.1) +
                ((squareStep s.sq0).1 + (squareStep s.sq1).1 + (noiseStep s.cfg s.noise).1.2)) / 2) * 256)) g))) ∧
    (∀ f, busRead s (BitVec.ofNat 16 (s.pcm.cur.toNat + 1)) = .fault f →
      exec .sample s = .next (s.withOut (.faulted f)))

/-- 44_sound_sample.md R196 (a), (c): a playback of `n` bytes from RAM emits `2n` nibbles in `2n` SAMPLEs, holding after
`k` of them the byte `k / 2` places from the start, and the next SAMPLE stops it. -/
def Obligations.PcmPlaybackEmitsTwoNibblesPerByte : Prop :=
  ∀ (s : State) (n : Nat), n = (if s.pcm.len = 0 then 4096 else s.pcm.len.toNat * 16) →
    s.pcm.trig = true → s.pcm.played = 0 → s.pcm.sel = false → s.pcm.cur.toNat + n ≤ 0x1FFF →
    s.pcm.byte = ramByte s (BitVec.ofNat 13 s.pcm.cur.toNat) →
    (∀ k, k ≤ 2 * n → ∃ t, applyTimes .sample k s = .next t ∧ t.pcm.trig = true ∧ t.pcm.played = k ∧
      t.pcm.sel = decide (k % 2 = 1) ∧ t.pcm.cur.toNat = s.pcm.cur.toNat + k / 2 ∧
      t.pcm.byte = ramByte s (BitVec.ofNat 13 (s.pcm.cur.toNat + k / 2))) ∧
    ∃ t, applyTimes .sample (2 * n + 1) s = .next t ∧ t.pcm.trig = false ∧ t.pcm.played = 2 * n ∧
      t.pcm.sel = false ∧ t.pcm.cur.toNat = s.pcm.cur.toNat + n

/-- 44_sound_sample.md R199: a sample is a multiple of 256 in 0..15360, so as a signed number it is never negative. That
SAMPLE answers a next state even where its fetch faults is the model's choice (log entry 1). -/
def Obligations.SampleIsAMultipleOf256UpTo15360 : Prop :=
  ∀ s : State, ∃ t, exec .sample s = .next t ∧
    ∀ v d, t.out = .sample v d → v.toNat % 256 = 0 ∧ v.toInt = (v.toNat : Int) ∧ v.toNat ≤ 15360

/-- 44_sound_sample.md R197: the PCM bank, route and frequency fields influence no result: two states that differ in
them alone give the same result and again differ in them alone. That an instruction which faults answers a next state is
the model's choice (log entry 1). -/
def Obligations.UnreadPcmFieldsInfluenceNothing : Prop :=
  ∀ (i : Instr) (s s' : State), s.eraseUnread = s'.eraseUnread →
    ∃ t t', exec i s = .next t ∧ exec i s' = .next t' ∧ t.out = t'.out ∧ t.eraseUnread = t'.eraseUnread

/-- 40_bus_read.md R113, 10_state.md R48: the input `K` influences an instruction only where a controller read happens: a
read of the controller register by the CPU, or by the PCM streamer inside SAMPLE or a trigger write. -/
def Obligations.ButtonsMatterOnlyToControllerReads : Prop :=
  ∀ (i : Instr) (s t : State) (k : Byte), exec i s = .next t → i ≠ .rdCtrl →
    (i = .sample → ¬ ReadIs s.cfg (s.pcm.cur + 1) .rdCtrl) →
    (∀ v, i = .wrPcmR4 v → ¬ ReadIs s.cfg (s.pcm.ahi ++ s.pcm.alo) .rdCtrl) →
    exec i (s.withKeys k) = .next (t.withKeys k)

/-! ### Faults and diagnostics -/

/-- 60_exceptions.md R210: an operation that faults has no effect at all, names the index, and is a read of the switchable
window, a PCM trigger or a SAMPLE. That it is a next state reporting the fault is the model's choice (log entry 1). -/
def Obligations.FaultingOperationHasNoEffect : Prop :=
  ∀ (i : Instr) (s t : State) (f : Fault), exec i s = .next t → t.out = .faulted f →
    t = s.withOut (.faulted f) ∧ (∃ n, f = .romIndexOutOfRange n ∧ s.cfg.rom.size ≤ n) ∧
    ((∃ a, i = .rdRomBank a) ∨ (∃ v, i = .wrPcmR4 v) ∨ i = .sample)

/-- 60_exceptions.md R212: no instruction stops the machine: each answers a next state, on every state and operands, and
those outside R210's three never report a fault (that the three report it in a next state is the model's choice, log
entry 1). -/
def Obligations.NoInstructionStopsTheMachine : Prop :=
  ∀ (i : Instr) (s : State), ∃ t, exec i s = .next t ∧
    ((∀ a, i ≠ .rdRomBank a) → (∀ v, i ≠ .wrPcmR4 v) → i ≠ .sample → ∀ f, t.out ≠ .faulted f)

/-- 60_exceptions.md R213: the diagnostic is set exactly by an access to an unknown register or an unmapped address, by a
SAMPLE that fetches (a playback running below its total, at the low nibble) from an address that reads as such, and by a
fresh trigger whose first fetch does. -/
def Obligations.DiagnosticMarksUnmappedAccesses : Prop :=
  ∀ (i : Instr) (s t : State), exec i s = .next t →
    (t.out.diag = true ↔ i.isUnmapped = true ∨
      (i = .sample ∧ s.pcm.trig = true ∧ s.pcm.sel = true ∧
        s.pcm.played < (if s.pcm.len = 0 then 4096 else s.pcm.len.toNat * 16) * 2 ∧
        ∃ j, ReadIs s.cfg (s.pcm.cur + 1) j ∧ j.isUnmapped = true) ∨
      (∃ v, i = .wrPcmR4 v ∧ 128 ≤ v.toNat ∧ ¬ (s.pcm.trig = true ∧ 0 < s.pcm.played) ∧
        ∃ j, ReadIs s.cfg (s.pcm.ahi ++ s.pcm.alo) j ∧ j.isUnmapped = true))

/-! ### RESET -/

/-- 70_reset_and_hazards.md R230, R231: RESET gives every element its reset value and keeps the configuration, the input
and the schedule (log entries 5, 6 and 16; the spec's decision D29); after it the block is silent and raises nothing. -/
def Obligations.ResetGivesEveryElementItsValue : Prop :=
  ∀ s : State, KindIs s.cfg 0b110 .reset ∧ ∃ t, exec .reset s = .next t ∧
    t.cfg = s.cfg ∧ t.keys = s.keys ∧ t.pending = s.pending ∧ t.out = .none ∧
    (∀ a, ramByte t a = Config.initRam a ∧ vramByte t a = Config.initVram a) ∧ t.ram = [] ∧ t.vram = [] ∧
    t.lcd = ⟨0, 0, 0, 0⟩ ∧ t.bank = 0 ∧ t.nmiEn = false ∧ t.timer = ⟨false, false, 0, 0⟩ ∧ t.irqPend = false ∧
    t.sq0 = ⟨0, 0, 0, 0, false, 0, 0, 0⟩ ∧ t.sq1 = ⟨0, 0, 0, 0, false, 0, 0, 0⟩ ∧
    t.noise = ⟨0, 0, 0, false, false, false, false, false, 0x007F, 0⟩ ∧
    t.pcm = ⟨0, 0, 0, 0, false, false, 0, false, 0, 0, false, 0⟩ ∧
    exec .frame t = .next (t.withOut (.nmi false)) ∧
    exec .takeIrq t = .next (t.withOut (.irq false)) ∧
    exec .sample t = .next (t.withOut (.sample 0 false)) ∧
    exec .rdTimer t = .next (t.withOut (.byte 0x00 false)) ∧
    (∀ a, exec (.rdLcd a) t = .next (t.withOut (.byte 0x00 false))) ∧
    (∀ a, exec (.rdRomBank a) t = .next (t.withOut (.byte (romByte s.cfg.rom a.toNat) false))) ∧
    exec .tick t = .next (t.withTimer ⟨false, false, 0xFF, 0⟩)

/-! ### The whole machine -/

/-- 10_state.md R24, R48: no operation, RESET included, changes the configuration (the ROM among it) or the input. That
State holds the two, and that RESET keeps them, are log entries 2, 9 and 16. -/
def Obligations.NoInstructionChangesTheConfiguration : Prop :=
  ∀ (i : Instr) (s t : State), exec i s = .next t → t.cfg = s.cfg ∧ t.keys = s.keys

/-- 10_state.md R22, R23: the bytes of a memory change only by a store to it and by RESET. -/
def Obligations.MemoryChangesOnlyByItsStores : Prop :=
  ∀ (i : Instr) (s t : State), exec i s = .next t → i ≠ .reset →
    (∀ b : MemIndex, ramByte t b ≠ ramByte s b → ∃ v, i = .wrRam b v ∧ ramByte t b = v) ∧
    (∀ b : MemIndex, vramByte t b ≠ vramByte s b → ∃ v, i = .wrVram b v ∧ vramByte t b = v)

/-- 43_sound_registers.md R165, 44_sound_sample.md: a sound channel changes only by a write of its own registers, by
SAMPLE and by RESET. -/
def Obligations.SoundChannelsChangeOnlyByTheirRegistersAndSample : Prop :=
  ∀ (i : Instr) (s t : State), exec i s = .next t → i ≠ .sample → i ≠ .reset →
    (t.sq0 ≠ s.sq0 → ∃ v, i = .wrSq0R0 v ∨ i = .wrSq0R1 v ∨ i = .wrSq0R2 v ∨ i = .wrSq0R3 v) ∧
    (t.sq1 ≠ s.sq1 → ∃ v, i = .wrSq1R0 v ∨ i = .wrSq1R1 v ∨ i = .wrSq1R2 v ∨ i = .wrSq1R3 v) ∧
    (t.noise ≠ s.noise → ∃ v, i = .wrNoiseR0 v ∨ i = .wrNoiseR1 v ∨ i = .wrNoiseR2 v) ∧
    (t.pcm ≠ s.pcm → ∃ v, i = .wrPcmR0 v ∨ i = .wrPcmR1 v ∨ i = .wrPcmR2 v ∨ i = .wrPcmR3 v ∨ i = .wrPcmR4 v)

/-- 10_state.md R49: every step keeps the invariants. -/
def Obligations.EveryStepKeepsTheInvariants : Prop :=
  ∀ s t : State, s.Inv → step s = .next t → t.Inv

/-- 10_state.md R49: the invariants hold after reset. -/
def Obligations.ResetStateMeetsTheInvariants : Prop := State.reset.Inv
end

