-- ==== Sys2Proof/Laws/Memory.lean ====
section
/-! SUPPORT. The laws of the two memories: what a read after a write gives, and that a write keeps the canonical form. -/

namespace Sys2Proof.Machine

@[simp] theorem Memory.read_nil (i : Nat) : Memory.read [] i = none := rfl

theorem Memory.read_cons (k : Nat) (b : Byte) (m : Memory) (i : Nat) :
    Memory.read ((k, b) :: m) i = if k = i then some b else Memory.read m i := rfl

/-- A read of the index just written gives the value written. -/
@[simp] theorem Memory.read_write_same (m : Memory) (i : Nat) (v : Byte) :
    Memory.read (Memory.write m i v) i = some v := by
  induction m with
  | nil => simp [Memory.write, Memory.read]
  | cons p rest ih =>
    obtain ⟨k, b⟩ := p
    simp only [Memory.write]
    split
    · simp [Memory.read]
    · split
      · simp [Memory.read]
      · rename_i h
        rw [Memory.read_cons, if_neg (fun hk => h hk.symm), ih]

/-- A read of any other index gives what it gave before. -/
theorem Memory.read_write_other (m : Memory) {i j : Nat} (v : Byte) (h : j ≠ i) :
    Memory.read (Memory.write m i v) j = Memory.read m j := by
  induction m with
  | nil => simp [Memory.write, Memory.read, h.symm]
  | cons p rest ih =>
    obtain ⟨k, b⟩ := p
    simp only [Memory.write]
    split
    · rw [Memory.read_cons, if_neg h.symm]
    · split
      · rename_i hk
        simp only [Memory.read_cons, if_neg h.symm, if_neg (hk ▸ h.symm : ¬ k = j)]
      · rw [Memory.read_cons, Memory.read_cons, ih]

theorem Memory.wfFrom_mono {lo lo' hi : Nat} {m : Memory} (h : lo' ≤ lo) (hm : Memory.wfFrom lo hi m = true) :
    Memory.wfFrom lo' hi m = true := by
  cases m with
  | nil => rfl
  | cons p rest =>
    obtain ⟨k, b⟩ := p
    simp only [Memory.wfFrom, Bool.and_eq_true, decide_eq_true_eq] at hm ⊢
    exact ⟨⟨h.trans hm.1.1, hm.1.2⟩, hm.2⟩

/-- A write keeps the canonical form from any lower bound that the index meets. -/
theorem Memory.write_wfFrom {lo hi : Nat} {m : Memory} {i : Nat} (v : Byte) (hlo : lo ≤ i) (hhi : i < hi)
    (hm : Memory.wfFrom lo hi m = true) : Memory.wfFrom lo hi (Memory.write m i v) = true := by
  induction m generalizing lo with
  | nil => simp [Memory.write, Memory.wfFrom, hlo, hhi]
  | cons p rest ih =>
    obtain ⟨k, b⟩ := p
    simp only [Memory.wfFrom, Bool.and_eq_true, decide_eq_true_eq] at hm
    obtain ⟨⟨hk, hkhi⟩, hrest⟩ := hm
    simp only [Memory.write]
    split
    · rename_i hik
      simp only [Memory.wfFrom, Bool.and_eq_true, decide_eq_true_eq]
      exact ⟨⟨hlo, hhi⟩, ⟨hik, hkhi⟩, hrest⟩
    · split
      · rename_i hik
        subst hik
        simp only [Memory.wfFrom, Bool.and_eq_true, decide_eq_true_eq]
        exact ⟨⟨hlo, hhi⟩, hrest⟩
      · simp only [Memory.wfFrom, Bool.and_eq_true, decide_eq_true_eq]
        exact ⟨⟨hk, hkhi⟩, ih (by omega) hrest⟩

/-- Every store to one of the two memories keeps its canonical form. -/
theorem Memory.write_wf {m : Memory} (i : MemIndex) (v : Byte) (hm : Memory.wf m = true) :
    Memory.wf (Memory.write m i.toNat v) = true :=
  Memory.write_wfFrom v (Nat.zero_le _) i.isLt hm

/-- What an index holds is what was stored there last, or the initial contents. -/
theorem ramByte_storeRam (s : State) (i j : MemIndex) (v : Byte) :
    ramByte (storeRam s i v) j = if j = i then v else ramByte s j := by
  unfold ramByte storeRam State.withRam
  by_cases h : j = i
  · simp [h]
  · have : j.toNat ≠ i.toNat := fun hn => h (BitVec.eq_of_toNat_eq hn)
    simp [h, Memory.read_write_other _ _ this]

/-- The same of VRAM. -/
theorem vramByte_storeVram (s : State) (i j : MemIndex) (v : Byte) :
    vramByte (storeVram s i v) j = if j = i then v else vramByte s j := by
  unfold vramByte storeVram State.withVram
  by_cases h : j = i
  · simp [h]
  · have : j.toNat ≠ i.toNat := fun hn => h (BitVec.eq_of_toNat_eq hn)
    simp [h, Memory.read_write_other _ _ this]

/-- No image shorter than one window loads (60_exceptions.md R211). -/
theorem romOfImage_size {bytes : List Byte} {r : Rom} (h : romOfImage bytes = some r) : r.size = bytes.length := by
  unfold romOfImage at h
  by_cases hlen : bytes.length < 16384
  · rw [if_pos hlen] at h
    exact absurd h (by simp)
  · rw [if_neg hlen, Option.some.injEq] at h
    rw [← h, Rom.size, Nat.sub_add_cancel (Nat.le_of_not_lt hlen)]

/-- The cells of an image, from its first index on, give back its bytes. -/
theorem romByteIn_romCellsFrom (bytes : List Byte) (start i : Nat) (h : i < bytes.length) :
    romByteIn (romCellsFrom start bytes) (start + i) = bytes[i] := by
  induction bytes generalizing start i with
  | nil => exact absurd h (Nat.not_lt_zero _)
  | cons b bs ih =>
    cases i with
    | zero => simp [romCellsFrom, romByteIn]
    | succ i =>
      have hi : i < bs.length := Nat.lt_of_succ_lt_succ h
      have := ih (start + 1) i hi
      rw [romCellsFrom, romByteIn, if_neg (by omega), List.getElem_cons_succ, ← this]
      congr 1
      omega

/-- A loaded image holds its bytes (00_scope.md R8). -/
theorem romByte_romOfImage {bytes : List Byte} {r : Rom} (h : romOfImage bytes = some r) (i : Nat)
    (hi : i < bytes.length) : romByte r i = bytes[i] := by
  unfold romOfImage at h
  by_cases hlen : bytes.length < 16384
  · rw [if_pos hlen] at h
    exact absurd h (by simp)
  · rw [if_neg hlen, Option.some.injEq] at h
    have := romByteIn_romCellsFrom bytes 0 i hi
    rw [← h, romByte, ← this, Nat.zero_add]

/-- An LCD register reads what was written to it, and the others what they held. -/
theorem lcdRead_lcdWrite (l : Lcd) (i j : BitVec 2) (v : Byte) :
    lcdRead (lcdWrite l i v) j = if j = i then v else lcdRead l j := by
  have key : ∀ k : BitVec 2, k = 0 ∨ k = 1 ∨ k = 2 ∨ k = 3 := by decide
  rcases key i with rfl | rfl | rfl | rfl <;> rcases key j with rfl | rfl | rfl | rfl <;>
    simp [lcdRead, lcdWrite]

end Sys2Proof.Machine
end

