-- ==== Sys2Proof/Laws/State.lean ====
section
/-! SUPPORT. One lemma per field per update of State, so that no later proof unfolds a record update; what an update of
a field by its own value, or a second update of one field, gives; and the fields of the shared updates. -/

namespace Sys2Proof.Machine

section
variable (s : State) (x y : Memory)
@[simp] theorem State.withRam_cfg : (s.withRam x).cfg = s.cfg := rfl
@[simp] theorem State.withRam_ram : (s.withRam x).ram = x := rfl
@[simp] theorem State.withRam_vram : (s.withRam x).vram = s.vram := rfl
@[simp] theorem State.withRam_lcd : (s.withRam x).lcd = s.lcd := rfl
@[simp] theorem State.withRam_bank : (s.withRam x).bank = s.bank := rfl
@[simp] theorem State.withRam_nmiEn : (s.withRam x).nmiEn = s.nmiEn := rfl
@[simp] theorem State.withRam_timer : (s.withRam x).timer = s.timer := rfl
@[simp] theorem State.withRam_irqPend : (s.withRam x).irqPend = s.irqPend := rfl
@[simp] theorem State.withRam_sq0 : (s.withRam x).sq0 = s.sq0 := rfl
@[simp] theorem State.withRam_sq1 : (s.withRam x).sq1 = s.sq1 := rfl
@[simp] theorem State.withRam_noise : (s.withRam x).noise = s.noise := rfl
@[simp] theorem State.withRam_pcm : (s.withRam x).pcm = s.pcm := rfl
@[simp] theorem State.withRam_keys : (s.withRam x).keys = s.keys := rfl
@[simp] theorem State.withRam_pending : (s.withRam x).pending = s.pending := rfl
@[simp] theorem State.withRam_out : (s.withRam x).out = s.out := rfl
@[simp] theorem State.withRam_withRam : (s.withRam x).withRam y = s.withRam y := rfl
@[simp] theorem State.withRam_self : s.withRam s.ram = s := rfl
end

section
variable (s : State) (x y : Memory)
@[simp] theorem State.withVram_cfg : (s.withVram x).cfg = s.cfg := rfl
@[simp] theorem State.withVram_ram : (s.withVram x).ram = s.ram := rfl
@[simp] theorem State.withVram_vram : (s.withVram x).vram = x := rfl
@[simp] theorem State.withVram_lcd : (s.withVram x).lcd = s.lcd := rfl
@[simp] theorem State.withVram_bank : (s.withVram x).bank = s.bank := rfl
@[simp] theorem State.withVram_nmiEn : (s.withVram x).nmiEn = s.nmiEn := rfl
@[simp] theorem State.withVram_timer : (s.withVram x).timer = s.timer := rfl
@[simp] theorem State.withVram_irqPend : (s.withVram x).irqPend = s.irqPend := rfl
@[simp] theorem State.withVram_sq0 : (s.withVram x).sq0 = s.sq0 := rfl
@[simp] theorem State.withVram_sq1 : (s.withVram x).sq1 = s.sq1 := rfl
@[simp] theorem State.withVram_noise : (s.withVram x).noise = s.noise := rfl
@[simp] theorem State.withVram_pcm : (s.withVram x).pcm = s.pcm := rfl
@[simp] theorem State.withVram_keys : (s.withVram x).keys = s.keys := rfl
@[simp] theorem State.withVram_pending : (s.withVram x).pending = s.pending := rfl
@[simp] theorem State.withVram_out : (s.withVram x).out = s.out := rfl
@[simp] theorem State.withVram_withVram : (s.withVram x).withVram y = s.withVram y := rfl
@[simp] theorem State.withVram_self : s.withVram s.vram = s := rfl
end

section
variable (s : State) (x y : Lcd)
@[simp] theorem State.withLcd_cfg : (s.withLcd x).cfg = s.cfg := rfl
@[simp] theorem State.withLcd_ram : (s.withLcd x).ram = s.ram := rfl
@[simp] theorem State.withLcd_vram : (s.withLcd x).vram = s.vram := rfl
@[simp] theorem State.withLcd_lcd : (s.withLcd x).lcd = x := rfl
@[simp] theorem State.withLcd_bank : (s.withLcd x).bank = s.bank := rfl
@[simp] theorem State.withLcd_nmiEn : (s.withLcd x).nmiEn = s.nmiEn := rfl
@[simp] theorem State.withLcd_timer : (s.withLcd x).timer = s.timer := rfl
@[simp] theorem State.withLcd_irqPend : (s.withLcd x).irqPend = s.irqPend := rfl
@[simp] theorem State.withLcd_sq0 : (s.withLcd x).sq0 = s.sq0 := rfl
@[simp] theorem State.withLcd_sq1 : (s.withLcd x).sq1 = s.sq1 := rfl
@[simp] theorem State.withLcd_noise : (s.withLcd x).noise = s.noise := rfl
@[simp] theorem State.withLcd_pcm : (s.withLcd x).pcm = s.pcm := rfl
@[simp] theorem State.withLcd_keys : (s.withLcd x).keys = s.keys := rfl
@[simp] theorem State.withLcd_pending : (s.withLcd x).pending = s.pending := rfl
@[simp] theorem State.withLcd_out : (s.withLcd x).out = s.out := rfl
@[simp] theorem State.withLcd_withLcd : (s.withLcd x).withLcd y = s.withLcd y := rfl
@[simp] theorem State.withLcd_self : s.withLcd s.lcd = s := rfl
end

section
variable (s : State) (x y : BitVec 3)
@[simp] theorem State.withBank_cfg : (s.withBank x).cfg = s.cfg := rfl
@[simp] theorem State.withBank_ram : (s.withBank x).ram = s.ram := rfl
@[simp] theorem State.withBank_vram : (s.withBank x).vram = s.vram := rfl
@[simp] theorem State.withBank_lcd : (s.withBank x).lcd = s.lcd := rfl
@[simp] theorem State.withBank_bank : (s.withBank x).bank = x := rfl
@[simp] theorem State.withBank_nmiEn : (s.withBank x).nmiEn = s.nmiEn := rfl
@[simp] theorem State.withBank_timer : (s.withBank x).timer = s.timer := rfl
@[simp] theorem State.withBank_irqPend : (s.withBank x).irqPend = s.irqPend := rfl
@[simp] theorem State.withBank_sq0 : (s.withBank x).sq0 = s.sq0 := rfl
@[simp] theorem State.withBank_sq1 : (s.withBank x).sq1 = s.sq1 := rfl
@[simp] theorem State.withBank_noise : (s.withBank x).noise = s.noise := rfl
@[simp] theorem State.withBank_pcm : (s.withBank x).pcm = s.pcm := rfl
@[simp] theorem State.withBank_keys : (s.withBank x).keys = s.keys := rfl
@[simp] theorem State.withBank_pending : (s.withBank x).pending = s.pending := rfl
@[simp] theorem State.withBank_out : (s.withBank x).out = s.out := rfl
@[simp] theorem State.withBank_withBank : (s.withBank x).withBank y = s.withBank y := rfl
@[simp] theorem State.withBank_self : s.withBank s.bank = s := rfl
end

section
variable (s : State) (x y : Bool)
@[simp] theorem State.withNmiEn_cfg : (s.withNmiEn x).cfg = s.cfg := rfl
@[simp] theorem State.withNmiEn_ram : (s.withNmiEn x).ram = s.ram := rfl
@[simp] theorem State.withNmiEn_vram : (s.withNmiEn x).vram = s.vram := rfl
@[simp] theorem State.withNmiEn_lcd : (s.withNmiEn x).lcd = s.lcd := rfl
@[simp] theorem State.withNmiEn_bank : (s.withNmiEn x).bank = s.bank := rfl
@[simp] theorem State.withNmiEn_nmiEn : (s.withNmiEn x).nmiEn = x := rfl
@[simp] theorem State.withNmiEn_timer : (s.withNmiEn x).timer = s.timer := rfl
@[simp] theorem State.withNmiEn_irqPend : (s.withNmiEn x).irqPend = s.irqPend := rfl
@[simp] theorem State.withNmiEn_sq0 : (s.withNmiEn x).sq0 = s.sq0 := rfl
@[simp] theorem State.withNmiEn_sq1 : (s.withNmiEn x).sq1 = s.sq1 := rfl
@[simp] theorem State.withNmiEn_noise : (s.withNmiEn x).noise = s.noise := rfl
@[simp] theorem State.withNmiEn_pcm : (s.withNmiEn x).pcm = s.pcm := rfl
@[simp] theorem State.withNmiEn_keys : (s.withNmiEn x).keys = s.keys := rfl
@[simp] theorem State.withNmiEn_pending : (s.withNmiEn x).pending = s.pending := rfl
@[simp] theorem State.withNmiEn_out : (s.withNmiEn x).out = s.out := rfl
@[simp] theorem State.withNmiEn_withNmiEn : (s.withNmiEn x).withNmiEn y = s.withNmiEn y := rfl
@[simp] theorem State.withNmiEn_self : s.withNmiEn s.nmiEn = s := rfl
end

section
variable (s : State) (x y : Timer)
@[simp] theorem State.withTimer_cfg : (s.withTimer x).cfg = s.cfg := rfl
@[simp] theorem State.withTimer_ram : (s.withTimer x).ram = s.ram := rfl
@[simp] theorem State.withTimer_vram : (s.withTimer x).vram = s.vram := rfl
@[simp] theorem State.withTimer_lcd : (s.withTimer x).lcd = s.lcd := rfl
@[simp] theorem State.withTimer_bank : (s.withTimer x).bank = s.bank := rfl
@[simp] theorem State.withTimer_nmiEn : (s.withTimer x).nmiEn = s.nmiEn := rfl
@[simp] theorem State.withTimer_timer : (s.withTimer x).timer = x := rfl
@[simp] theorem State.withTimer_irqPend : (s.withTimer x).irqPend = s.irqPend := rfl
@[simp] theorem State.withTimer_sq0 : (s.withTimer x).sq0 = s.sq0 := rfl
@[simp] theorem State.withTimer_sq1 : (s.withTimer x).sq1 = s.sq1 := rfl
@[simp] theorem State.withTimer_noise : (s.withTimer x).noise = s.noise := rfl
@[simp] theorem State.withTimer_pcm : (s.withTimer x).pcm = s.pcm := rfl
@[simp] theorem State.withTimer_keys : (s.withTimer x).keys = s.keys := rfl
@[simp] theorem State.withTimer_pending : (s.withTimer x).pending = s.pending := rfl
@[simp] theorem State.withTimer_out : (s.withTimer x).out = s.out := rfl
@[simp] theorem State.withTimer_withTimer : (s.withTimer x).withTimer y = s.withTimer y := rfl
@[simp] theorem State.withTimer_self : s.withTimer s.timer = s := rfl
end

section
variable (s : State) (x y : Bool)
@[simp] theorem State.withIrqPend_cfg : (s.withIrqPend x).cfg = s.cfg := rfl
@[simp] theorem State.withIrqPend_ram : (s.withIrqPend x).ram = s.ram := rfl
@[simp] theorem State.withIrqPend_vram : (s.withIrqPend x).vram = s.vram := rfl
@[simp] theorem State.withIrqPend_lcd : (s.withIrqPend x).lcd = s.lcd := rfl
@[simp] theorem State.withIrqPend_bank : (s.withIrqPend x).bank = s.bank := rfl
@[simp] theorem State.withIrqPend_nmiEn : (s.withIrqPend x).nmiEn = s.nmiEn := rfl
@[simp] theorem State.withIrqPend_timer : (s.withIrqPend x).timer = s.timer := rfl
@[simp] theorem State.withIrqPend_irqPend : (s.withIrqPend x).irqPend = x := rfl
@[simp] theorem State.withIrqPend_sq0 : (s.withIrqPend x).sq0 = s.sq0 := rfl
@[simp] theorem State.withIrqPend_sq1 : (s.withIrqPend x).sq1 = s.sq1 := rfl
@[simp] theorem State.withIrqPend_noise : (s.withIrqPend x).noise = s.noise := rfl
@[simp] theorem State.withIrqPend_pcm : (s.withIrqPend x).pcm = s.pcm := rfl
@[simp] theorem State.withIrqPend_keys : (s.withIrqPend x).keys = s.keys := rfl
@[simp] theorem State.withIrqPend_pending : (s.withIrqPend x).pending = s.pending := rfl
@[simp] theorem State.withIrqPend_out : (s.withIrqPend x).out = s.out := rfl
@[simp] theorem State.withIrqPend_withIrqPend : (s.withIrqPend x).withIrqPend y = s.withIrqPend y := rfl
@[simp] theorem State.withIrqPend_self : s.withIrqPend s.irqPend = s := rfl
end

section
variable (s : State) (x y : Square)
@[simp] theorem State.withSq0_cfg : (s.withSq0 x).cfg = s.cfg := rfl
@[simp] theorem State.withSq0_ram : (s.withSq0 x).ram = s.ram := rfl
@[simp] theorem State.withSq0_vram : (s.withSq0 x).vram = s.vram := rfl
@[simp] theorem State.withSq0_lcd : (s.withSq0 x).lcd = s.lcd := rfl
@[simp] theorem State.withSq0_bank : (s.withSq0 x).bank = s.bank := rfl
@[simp] theorem State.withSq0_nmiEn : (s.withSq0 x).nmiEn = s.nmiEn := rfl
@[simp] theorem State.withSq0_timer : (s.withSq0 x).timer = s.timer := rfl
@[simp] theorem State.withSq0_irqPend : (s.withSq0 x).irqPend = s.irqPend := rfl
@[simp] theorem State.withSq0_sq0 : (s.withSq0 x).sq0 = x := rfl
@[simp] theorem State.withSq0_sq1 : (s.withSq0 x).sq1 = s.sq1 := rfl
@[simp] theorem State.withSq0_noise : (s.withSq0 x).noise = s.noise := rfl
@[simp] theorem State.withSq0_pcm : (s.withSq0 x).pcm = s.pcm := rfl
@[simp] theorem State.withSq0_keys : (s.withSq0 x).keys = s.keys := rfl
@[simp] theorem State.withSq0_pending : (s.withSq0 x).pending = s.pending := rfl
@[simp] theorem State.withSq0_out : (s.withSq0 x).out = s.out := rfl
@[simp] theorem State.withSq0_withSq0 : (s.withSq0 x).withSq0 y = s.withSq0 y := rfl
@[simp] theorem State.withSq0_self : s.withSq0 s.sq0 = s := rfl
end

section
variable (s : State) (x y : Square)
@[simp] theorem State.withSq1_cfg : (s.withSq1 x).cfg = s.cfg := rfl
@[simp] theorem State.withSq1_ram : (s.withSq1 x).ram = s.ram := rfl
@[simp] theorem State.withSq1_vram : (s.withSq1 x).vram = s.vram := rfl
@[simp] theorem State.withSq1_lcd : (s.withSq1 x).lcd = s.lcd := rfl
@[simp] theorem State.withSq1_bank : (s.withSq1 x).bank = s.bank := rfl
@[simp] theorem State.withSq1_nmiEn : (s.withSq1 x).nmiEn = s.nmiEn := rfl
@[simp] theorem State.withSq1_timer : (s.withSq1 x).timer = s.timer := rfl
@[simp] theorem State.withSq1_irqPend : (s.withSq1 x).irqPend = s.irqPend := rfl
@[simp] theorem State.withSq1_sq0 : (s.withSq1 x).sq0 = s.sq0 := rfl
@[simp] theorem State.withSq1_sq1 : (s.withSq1 x).sq1 = x := rfl
@[simp] theorem State.withSq1_noise : (s.withSq1 x).noise = s.noise := rfl
@[simp] theorem State.withSq1_pcm : (s.withSq1 x).pcm = s.pcm := rfl
@[simp] theorem State.withSq1_keys : (s.withSq1 x).keys = s.keys := rfl
@[simp] theorem State.withSq1_pending : (s.withSq1 x).pending = s.pending := rfl
@[simp] theorem State.withSq1_out : (s.withSq1 x).out = s.out := rfl
@[simp] theorem State.withSq1_withSq1 : (s.withSq1 x).withSq1 y = s.withSq1 y := rfl
@[simp] theorem State.withSq1_self : s.withSq1 s.sq1 = s := rfl
end

section
variable (s : State) (x y : Noise)
@[simp] theorem State.withNoise_cfg : (s.withNoise x).cfg = s.cfg := rfl
@[simp] theorem State.withNoise_ram : (s.withNoise x).ram = s.ram := rfl
@[simp] theorem State.withNoise_vram : (s.withNoise x).vram = s.vram := rfl
@[simp] theorem State.withNoise_lcd : (s.withNoise x).lcd = s.lcd := rfl
@[simp] theorem State.withNoise_bank : (s.withNoise x).bank = s.bank := rfl
@[simp] theorem State.withNoise_nmiEn : (s.withNoise x).nmiEn = s.nmiEn := rfl
@[simp] theorem State.withNoise_timer : (s.withNoise x).timer = s.timer := rfl
@[simp] theorem State.withNoise_irqPend : (s.withNoise x).irqPend = s.irqPend := rfl
@[simp] theorem State.withNoise_sq0 : (s.withNoise x).sq0 = s.sq0 := rfl
@[simp] theorem State.withNoise_sq1 : (s.withNoise x).sq1 = s.sq1 := rfl
@[simp] theorem State.withNoise_noise : (s.withNoise x).noise = x := rfl
@[simp] theorem State.withNoise_pcm : (s.withNoise x).pcm = s.pcm := rfl
@[simp] theorem State.withNoise_keys : (s.withNoise x).keys = s.keys := rfl
@[simp] theorem State.withNoise_pending : (s.withNoise x).pending = s.pending := rfl
@[simp] theorem State.withNoise_out : (s.withNoise x).out = s.out := rfl
@[simp] theorem State.withNoise_withNoise : (s.withNoise x).withNoise y = s.withNoise y := rfl
@[simp] theorem State.withNoise_self : s.withNoise s.noise = s := rfl
end

section
variable (s : State) (x y : Pcm)
@[simp] theorem State.withPcm_cfg : (s.withPcm x).cfg = s.cfg := rfl
@[simp] theorem State.withPcm_ram : (s.withPcm x).ram = s.ram := rfl
@[simp] theorem State.withPcm_vram : (s.withPcm x).vram = s.vram := rfl
@[simp] theorem State.withPcm_lcd : (s.withPcm x).lcd = s.lcd := rfl
@[simp] theorem State.withPcm_bank : (s.withPcm x).bank = s.bank := rfl
@[simp] theorem State.withPcm_nmiEn : (s.withPcm x).nmiEn = s.nmiEn := rfl
@[simp] theorem State.withPcm_timer : (s.withPcm x).timer = s.timer := rfl
@[simp] theorem State.withPcm_irqPend : (s.withPcm x).irqPend = s.irqPend := rfl
@[simp] theorem State.withPcm_sq0 : (s.withPcm x).sq0 = s.sq0 := rfl
@[simp] theorem State.withPcm_sq1 : (s.withPcm x).sq1 = s.sq1 := rfl
@[simp] theorem State.withPcm_noise : (s.withPcm x).noise = s.noise := rfl
@[simp] theorem State.withPcm_pcm : (s.withPcm x).pcm = x := rfl
@[simp] theorem State.withPcm_keys : (s.withPcm x).keys = s.keys := rfl
@[simp] theorem State.withPcm_pending : (s.withPcm x).pending = s.pending := rfl
@[simp] theorem State.withPcm_out : (s.withPcm x).out = s.out := rfl
@[simp] theorem State.withPcm_withPcm : (s.withPcm x).withPcm y = s.withPcm y := rfl
@[simp] theorem State.withPcm_self : s.withPcm s.pcm = s := rfl
end

section
variable (s : State) (x y : Byte)
@[simp] theorem State.withKeys_cfg : (s.withKeys x).cfg = s.cfg := rfl
@[simp] theorem State.withKeys_ram : (s.withKeys x).ram = s.ram := rfl
@[simp] theorem State.withKeys_vram : (s.withKeys x).vram = s.vram := rfl
@[simp] theorem State.withKeys_lcd : (s.withKeys x).lcd = s.lcd := rfl
@[simp] theorem State.withKeys_bank : (s.withKeys x).bank = s.bank := rfl
@[simp] theorem State.withKeys_nmiEn : (s.withKeys x).nmiEn = s.nmiEn := rfl
@[simp] theorem State.withKeys_timer : (s.withKeys x).timer = s.timer := rfl
@[simp] theorem State.withKeys_irqPend : (s.withKeys x).irqPend = s.irqPend := rfl
@[simp] theorem State.withKeys_sq0 : (s.withKeys x).sq0 = s.sq0 := rfl
@[simp] theorem State.withKeys_sq1 : (s.withKeys x).sq1 = s.sq1 := rfl
@[simp] theorem State.withKeys_noise : (s.withKeys x).noise = s.noise := rfl
@[simp] theorem State.withKeys_pcm : (s.withKeys x).pcm = s.pcm := rfl
@[simp] theorem State.withKeys_keys : (s.withKeys x).keys = x := rfl
@[simp] theorem State.withKeys_pending : (s.withKeys x).pending = s.pending := rfl
@[simp] theorem State.withKeys_out : (s.withKeys x).out = s.out := rfl
@[simp] theorem State.withKeys_withKeys : (s.withKeys x).withKeys y = s.withKeys y := rfl
@[simp] theorem State.withKeys_self : s.withKeys s.keys = s := rfl
end

section
variable (s : State) (x y : List Request)
@[simp] theorem State.withPending_cfg : (s.withPending x).cfg = s.cfg := rfl
@[simp] theorem State.withPending_ram : (s.withPending x).ram = s.ram := rfl
@[simp] theorem State.withPending_vram : (s.withPending x).vram = s.vram := rfl
@[simp] theorem State.withPending_lcd : (s.withPending x).lcd = s.lcd := rfl
@[simp] theorem State.withPending_bank : (s.withPending x).bank = s.bank := rfl
@[simp] theorem State.withPending_nmiEn : (s.withPending x).nmiEn = s.nmiEn := rfl
@[simp] theorem State.withPending_timer : (s.withPending x).timer = s.timer := rfl
@[simp] theorem State.withPending_irqPend : (s.withPending x).irqPend = s.irqPend := rfl
@[simp] theorem State.withPending_sq0 : (s.withPending x).sq0 = s.sq0 := rfl
@[simp] theorem State.withPending_sq1 : (s.withPending x).sq1 = s.sq1 := rfl
@[simp] theorem State.withPending_noise : (s.withPending x).noise = s.noise := rfl
@[simp] theorem State.withPending_pcm : (s.withPending x).pcm = s.pcm := rfl
@[simp] theorem State.withPending_keys : (s.withPending x).keys = s.keys := rfl
@[simp] theorem State.withPending_pending : (s.withPending x).pending = x := rfl
@[simp] theorem State.withPending_out : (s.withPending x).out = s.out := rfl
@[simp] theorem State.withPending_withPending : (s.withPending x).withPending y = s.withPending y := rfl
@[simp] theorem State.withPending_self : s.withPending s.pending = s := rfl
end

section
variable (s : State) (x y : Response)
@[simp] theorem State.withOut_cfg : (s.withOut x).cfg = s.cfg := rfl
@[simp] theorem State.withOut_ram : (s.withOut x).ram = s.ram := rfl
@[simp] theorem State.withOut_vram : (s.withOut x).vram = s.vram := rfl
@[simp] theorem State.withOut_lcd : (s.withOut x).lcd = s.lcd := rfl
@[simp] theorem State.withOut_bank : (s.withOut x).bank = s.bank := rfl
@[simp] theorem State.withOut_nmiEn : (s.withOut x).nmiEn = s.nmiEn := rfl
@[simp] theorem State.withOut_timer : (s.withOut x).timer = s.timer := rfl
@[simp] theorem State.withOut_irqPend : (s.withOut x).irqPend = s.irqPend := rfl
@[simp] theorem State.withOut_sq0 : (s.withOut x).sq0 = s.sq0 := rfl
@[simp] theorem State.withOut_sq1 : (s.withOut x).sq1 = s.sq1 := rfl
@[simp] theorem State.withOut_noise : (s.withOut x).noise = s.noise := rfl
@[simp] theorem State.withOut_pcm : (s.withOut x).pcm = s.pcm := rfl
@[simp] theorem State.withOut_keys : (s.withOut x).keys = s.keys := rfl
@[simp] theorem State.withOut_pending : (s.withOut x).pending = s.pending := rfl
@[simp] theorem State.withOut_out : (s.withOut x).out = x := rfl
@[simp] theorem State.withOut_withOut : (s.withOut x).withOut y = s.withOut y := rfl
@[simp] theorem State.withOut_self : s.withOut s.out = s := rfl
end

/-! ### The result is the outermost update -/

section
variable (s : State) (r : Response)
@[simp] theorem State.withOut_withRam (x : Memory) : (s.withOut r).withRam x = (s.withRam x).withOut r := rfl
@[simp] theorem State.withOut_withVram (x : Memory) : (s.withOut r).withVram x = (s.withVram x).withOut r := rfl
@[simp] theorem State.withOut_withLcd (x : Lcd) : (s.withOut r).withLcd x = (s.withLcd x).withOut r := rfl
@[simp] theorem State.withOut_withBank (x : BitVec 3) : (s.withOut r).withBank x = (s.withBank x).withOut r := rfl
@[simp] theorem State.withOut_withNmiEn (x : Bool) : (s.withOut r).withNmiEn x = (s.withNmiEn x).withOut r := rfl
@[simp] theorem State.withOut_withTimer (x : Timer) : (s.withOut r).withTimer x = (s.withTimer x).withOut r := rfl
@[simp] theorem State.withOut_withIrqPend (x : Bool) : (s.withOut r).withIrqPend x = (s.withIrqPend x).withOut r := rfl
@[simp] theorem State.withOut_withSq0 (x : Square) : (s.withOut r).withSq0 x = (s.withSq0 x).withOut r := rfl
@[simp] theorem State.withOut_withSq1 (x : Square) : (s.withOut r).withSq1 x = (s.withSq1 x).withOut r := rfl
@[simp] theorem State.withOut_withNoise (x : Noise) : (s.withOut r).withNoise x = (s.withNoise x).withOut r := rfl
@[simp] theorem State.withOut_withPcm (x : Pcm) : (s.withOut r).withPcm x = (s.withPcm x).withOut r := rfl
@[simp] theorem State.withOut_withKeys (x : Byte) : (s.withOut r).withKeys x = (s.withKeys x).withOut r := rfl
@[simp] theorem State.withOut_withPending (x : List Request) : (s.withOut r).withPending x = (s.withPending x).withOut r := rfl
end

/-! ### The shared updates of Machine/Ops.lean -/

section
variable (s : State)

@[simp] theorem raiseIrq_cfg : (raiseIrq s).cfg = s.cfg := rfl
@[simp] theorem raiseIrq_ram : (raiseIrq s).ram = s.ram := rfl
@[simp] theorem raiseIrq_vram : (raiseIrq s).vram = s.vram := rfl
@[simp] theorem raiseIrq_lcd : (raiseIrq s).lcd = s.lcd := rfl
@[simp] theorem raiseIrq_bank : (raiseIrq s).bank = s.bank := rfl
@[simp] theorem raiseIrq_nmiEn : (raiseIrq s).nmiEn = s.nmiEn := rfl
@[simp] theorem raiseIrq_timer : (raiseIrq s).timer = { s.timer with en := false } := rfl
@[simp] theorem raiseIrq_irqPend : (raiseIrq s).irqPend = true := rfl
@[simp] theorem raiseIrq_sq0 : (raiseIrq s).sq0 = s.sq0 := rfl
@[simp] theorem raiseIrq_sq1 : (raiseIrq s).sq1 = s.sq1 := rfl
@[simp] theorem raiseIrq_noise : (raiseIrq s).noise = s.noise := rfl
@[simp] theorem raiseIrq_pcm : (raiseIrq s).pcm = s.pcm := rfl
@[simp] theorem raiseIrq_keys : (raiseIrq s).keys = s.keys := rfl
@[simp] theorem raiseIrq_pending : (raiseIrq s).pending = s.pending := rfl
@[simp] theorem raiseIrq_out : (raiseIrq s).out = s.out := rfl
@[simp] theorem disarmTimer_cfg : (disarmTimer s).cfg = s.cfg := rfl
@[simp] theorem disarmTimer_ram : (disarmTimer s).ram = s.ram := rfl
@[simp] theorem disarmTimer_vram : (disarmTimer s).vram = s.vram := rfl
@[simp] theorem disarmTimer_lcd : (disarmTimer s).lcd = s.lcd := rfl
@[simp] theorem disarmTimer_bank : (disarmTimer s).bank = s.bank := rfl
@[simp] theorem disarmTimer_nmiEn : (disarmTimer s).nmiEn = s.nmiEn := rfl
@[simp] theorem disarmTimer_timer : (disarmTimer s).timer = { s.timer with en := false } := rfl
@[simp] theorem disarmTimer_irqPend : (disarmTimer s).irqPend = s.irqPend := rfl
@[simp] theorem disarmTimer_sq0 : (disarmTimer s).sq0 = s.sq0 := rfl
@[simp] theorem disarmTimer_sq1 : (disarmTimer s).sq1 = s.sq1 := rfl
@[simp] theorem disarmTimer_noise : (disarmTimer s).noise = s.noise := rfl
@[simp] theorem disarmTimer_pcm : (disarmTimer s).pcm = s.pcm := rfl
@[simp] theorem disarmTimer_keys : (disarmTimer s).keys = s.keys := rfl
@[simp] theorem disarmTimer_pending : (disarmTimer s).pending = s.pending := rfl
@[simp] theorem disarmTimer_out : (disarmTimer s).out = s.out := rfl
@[simp] theorem stepGenerators_cfg : (stepGenerators s).cfg = s.cfg := rfl
@[simp] theorem stepGenerators_ram : (stepGenerators s).ram = s.ram := rfl
@[simp] theorem stepGenerators_vram : (stepGenerators s).vram = s.vram := rfl
@[simp] theorem stepGenerators_lcd : (stepGenerators s).lcd = s.lcd := rfl
@[simp] theorem stepGenerators_bank : (stepGenerators s).bank = s.bank := rfl
@[simp] theorem stepGenerators_nmiEn : (stepGenerators s).nmiEn = s.nmiEn := rfl
@[simp] theorem stepGenerators_timer : (stepGenerators s).timer = s.timer := rfl
@[simp] theorem stepGenerators_irqPend : (stepGenerators s).irqPend = s.irqPend := rfl
@[simp] theorem stepGenerators_sq0 : (stepGenerators s).sq0 = (squareStep s.sq0).2 := rfl
@[simp] theorem stepGenerators_sq1 : (stepGenerators s).sq1 = (squareStep s.sq1).2 := rfl
@[simp] theorem stepGenerators_noise : (stepGenerators s).noise = (noiseStep s.cfg s.noise).2 := rfl
@[simp] theorem stepGenerators_pcm : (stepGenerators s).pcm = s.pcm := rfl
@[simp] theorem stepGenerators_keys : (stepGenerators s).keys = s.keys := rfl
@[simp] theorem stepGenerators_pending : (stepGenerators s).pending = s.pending := rfl
@[simp] theorem stepGenerators_out : (stepGenerators s).out = s.out := rfl

@[simp] theorem State.sq_c0 : s.sq .c0 = s.sq0 := rfl
@[simp] theorem State.sq_c1 : s.sq .c1 = s.sq1 := rfl
@[simp] theorem State.withSq_c0 (q : Square) : s.withSq .c0 q = s.withSq0 q := rfl
@[simp] theorem State.withSq_c1 (q : Square) : s.withSq .c1 q = s.withSq1 q := rfl

end

end Sys2Proof.Machine
end

