-- ==== Sys2Proof/Laws/Bus.lean ====
section
/-! SUPPORT. What a bus read can do, said once: the provers cite these instead of unfolding the dispatch. -/

namespace Sys2Proof.Machine

/-- A ROM index is read, or it is out of range and faults (20_memory.md R68). -/
theorem romAt_cases (s : State) (i : Nat) :
    (i < s.cfg.rom.size ∧ romAt s i = .done (romByte s.cfg.rom i) false s) ∨
      (s.cfg.rom.size ≤ i ∧ romAt s i = .fault (.romIndexOutOfRange i)) := by
  unfold romAt
  split
  · exact .inl ⟨‹_›, rfl⟩
  · exact .inr ⟨by omega, rfl⟩

/-- The index of the fixed window is always in range (20_memory.md R66). -/
theorem romFixedIndex_lt (r : Rom) (a : BitVec 14) : romFixedIndex r.size a < r.size := by
  have := a.isLt
  simp only [romFixedIndex, Rom.size] at *
  omega

/-- A read of the fixed window gives a byte of the ROM, with no side effect. -/
theorem readRomFixed_eq (s : State) (a : BitVec 14) :
    readRomFixed s a = .done (romByte s.cfg.rom (romFixedIndex s.cfg.rom.size a)) false s := by
  unfold readRomFixed romAt
  rw [if_pos (romFixedIndex_lt _ _)]

/-- What a READ of the register window can do (40_bus_read.md R110). -/
theorem busReadRegister_cases (s : State) (a : Address) :
    (∃ b d, busReadRegister s a = .done b d s) ∨ (∃ b, busReadRegister s a = .done b false (disarmTimer s)) := by
  unfold busReadRegister
  split
  · exact .inl ⟨_, _, rfl⟩
  split
  · exact .inl ⟨_, _, rfl⟩
  split
  · exact .inl ⟨_, _, rfl⟩
  split
  · exact .inr ⟨_, rfl⟩
  split
  · exact .inl ⟨_, _, rfl⟩
  split
  · exact .inr ⟨_, rfl⟩
  · exact .inl ⟨_, _, rfl⟩

/-- What a bus read can do: give a byte with no side effect, give a byte and clear `T.en`, or fault beyond the ROM. -/
theorem busRead_cases (s : State) (a : Address) :
    (∃ b d, busRead s a = .done b d s) ∨ (∃ b, busRead s a = .done b false (disarmTimer s)) ∨
      (∃ i, s.cfg.rom.size ≤ i ∧ busRead s a = .fault (.romIndexOutOfRange i)) := by
  unfold busRead
  split
  · exact .inl ⟨_, _, rfl⟩
  split
  · rcases busReadRegister_cases s a with h | h
    · exact .inl h
    · exact .inr (.inl h)
  split
  · exact .inl ⟨_, _, rfl⟩
  split
  · exact .inl ⟨_, _, rfl⟩
  split
  · exact .inl ⟨_, _, rfl⟩
  split
  · rcases romAt_cases s (romBankIndex s.bank (a.setWidth 14)) with ⟨_, h⟩ | ⟨hi, h⟩
    · exact .inl ⟨_, _, h⟩
    · exact .inr (.inr ⟨_, hi, h⟩)
  · exact .inl ⟨_, _, readRomFixed_eq s _⟩

/-- A bus read that gives a byte leaves the state, or clears `T.en` and nothing else. -/
theorem busRead_done {s t : State} {a : Address} {b : Byte} {d : Bool} (h : busRead s a = .done b d t) :
    t = s ∨ (t = disarmTimer s ∧ d = false) := by
  rcases busRead_cases s a with ⟨b', d', h'⟩ | ⟨b', h'⟩ | ⟨i, _, h'⟩
  · rw [h'] at h; cases h; exact .inl rfl
  · rw [h'] at h; cases h; exact .inr ⟨rfl, rfl⟩
  · rw [h'] at h; cases h

/-- A bus read that faults names an index at or beyond the end of the ROM. -/
theorem busRead_fault {s : State} {a : Address} {f : Fault} (h : busRead s a = .fault f) :
    ∃ i, f = .romIndexOutOfRange i ∧ s.cfg.rom.size ≤ i := by
  rcases busRead_cases s a with ⟨b', d', h'⟩ | ⟨b', h'⟩ | ⟨i, hi, h'⟩
  · rw [h'] at h; cases h
  · rw [h'] at h; cases h
  · rw [h'] at h; cases h; exact ⟨i, rfl, hi⟩

/-- `RomAt` does not look at the PCM channel. -/
theorem romAt_withPcm (s : State) (d : Pcm) (i : Nat) :
    romAt (s.withPcm d) i =
      match romAt s i with
      | .done b g t => .done b g (t.withPcm d)
      | .fault f => .fault f := by
  unfold romAt
  by_cases h : i < s.cfg.rom.size
  · rw [if_pos (show i < (s.withPcm d).cfg.rom.size from h), if_pos h]; rfl
  · rw [if_neg (show ¬ i < (s.withPcm d).cfg.rom.size from h), if_neg h]

/-- A READ of the register window does not look at the PCM channel. -/
theorem busReadRegister_withPcm (s : State) (d : Pcm) (a : Address) :
    busReadRegister (s.withPcm d) a =
      match busReadRegister s a with
      | .done b g t => .done b g (t.withPcm d)
      | .fault f => .fault f := by
  unfold busReadRegister
  by_cases h_lcd : s.cfg.hits .lcd a = true
  · rw [if_pos (show (s.withPcm d).cfg.hits .lcd a = true from h_lcd), if_pos h_lcd]; rfl
  rw [if_neg (show ¬ (s.withPcm d).cfg.hits .lcd a = true from h_lcd), if_neg h_lcd]
  by_cases h_ctrl : s.cfg.hits .ctrl a = true
  · rw [if_pos (show (s.withPcm d).cfg.hits .ctrl a = true from h_ctrl), if_pos h_ctrl]; rfl
  rw [if_neg (show ¬ (s.withPcm d).cfg.hits .ctrl a = true from h_ctrl), if_neg h_ctrl]
  by_cases h_timer : s.cfg.hits .timer a = true
  · rw [if_pos (show (s.withPcm d).cfg.hits .timer a = true from h_timer), if_pos h_timer]; rfl
  rw [if_neg (show ¬ (s.withPcm d).cfg.hits .timer a = true from h_timer), if_neg h_timer]
  by_cases h_tack : s.cfg.hits .tack a = true
  · rw [if_pos (show (s.withPcm d).cfg.hits .tack a = true from h_tack), if_pos h_tack]; rfl
  rw [if_neg (show ¬ (s.withPcm d).cfg.hits .tack a = true from h_tack), if_neg h_tack]
  by_cases h_aack : s.cfg.hits .aack a = true
  · rw [if_pos (show (s.withPcm d).cfg.hits .aack a = true from h_aack), if_pos h_aack]; rfl
  rw [if_neg (show ¬ (s.withPcm d).cfg.hits .aack a = true from h_aack), if_neg h_aack]
  by_cases h_irqstat : s.cfg.hits .irqstat a = true
  · rw [if_pos (show (s.withPcm d).cfg.hits .irqstat a = true from h_irqstat), if_pos h_irqstat]; rfl
  rw [if_neg (show ¬ (s.withPcm d).cfg.hits .irqstat a = true from h_irqstat), if_neg h_irqstat]
  rfl

/-- A bus read does not look at the PCM channel. -/
theorem busRead_withPcm (s : State) (d : Pcm) (a : Address) :
    busRead (s.withPcm d) a =
      match busRead s a with
      | .done b g t => .done b g (t.withPcm d)
      | .fault f => .fault f := by
  unfold busRead
  by_cases h0 : a.toNat ≤ 0x1FFF
  · rw [if_pos h0, if_pos h0]; rfl
  rw [if_neg h0, if_neg h0]
  by_cases h1 : a.toNat ≤ 0x2FFF
  · rw [if_pos h1, if_pos h1]; exact busReadRegister_withPcm s d a
  rw [if_neg h1, if_neg h1]
  by_cases h2 : a.toNat ≤ 0x3FFF
  · rw [if_pos h2, if_pos h2]; rfl
  rw [if_neg h2, if_neg h2]
  by_cases h3 : a.toNat ≤ 0x5FFF
  · rw [if_pos h3, if_pos h3]; rfl
  rw [if_neg h3, if_neg h3]
  by_cases h4 : a.toNat ≤ 0x7FFF
  · rw [if_pos h4, if_pos h4]; rfl
  rw [if_neg h4, if_neg h4]
  by_cases h5 : a.toNat ≤ 0xBFFF
  · rw [if_pos h5, if_pos h5]; exact romAt_withPcm s d _
  rw [if_neg h5, if_neg h5, readRomFixed_eq, readRomFixed_eq, State.withPcm_cfg]

/-- A READ of the register window depends on the configuration, the LCD file, the input and the timer alone. -/
theorem busReadRegister_agree (s s' : State) (a : Address) (hc : s'.cfg = s.cfg) (h1 : s'.lcd = s.lcd)
    (h2 : s'.keys = s.keys) (h3 : s'.timer = s.timer) :
    (∃ b d, busReadRegister s a = .done b d s ∧ busReadRegister s' a = .done b d s') ∨
    (∃ b, busReadRegister s a = .done b false (disarmTimer s) ∧ busReadRegister s' a = .done b false (disarmTimer s')) := by
  unfold busReadRegister
  simp only [hc, readLcd, readCtrl, readTimer, readTack, readAack, readIrqstat, readNothing, h1, h2, h3]
  repeat' split
  all_goals first | exact .inl ⟨_, _, rfl, rfl⟩ | exact .inr ⟨_, rfl, rfl⟩

/-- A bus read depends on the configuration, the memories, the LCD file, the bank, the input and the timer alone: two
states that agree on them get the same byte, diagnostic and side effect, or the same fault. -/
theorem busRead_agree (s s' : State) (a : Address) (hc : s'.cfg = s.cfg) (h1 : s'.lcd = s.lcd) (h2 : s'.keys = s.keys)
    (h3 : s'.timer = s.timer) (h4 : s'.ram = s.ram) (h5 : s'.vram = s.vram) (h6 : s'.bank = s.bank) :
    (∃ b d, busRead s a = .done b d s ∧ busRead s' a = .done b d s') ∨
    (∃ b, busRead s a = .done b false (disarmTimer s) ∧ busRead s' a = .done b false (disarmTimer s')) ∨
    (∃ f, busRead s a = .fault f ∧ busRead s' a = .fault f) := by
  unfold busRead
  split
  · exact .inl ⟨_, _, rfl, by simp [readRam, ramByte, h4]⟩
  split
  · rcases busReadRegister_agree s s' a hc h1 h2 h3 with h | h
    · exact .inl h
    · exact .inr (.inl h)
  split
  · exact .inl ⟨_, _, rfl, rfl⟩
  split
  · exact .inl ⟨_, _, rfl, by simp [readVram, vramByte, h5]⟩
  split
  · exact .inl ⟨_, _, rfl, rfl⟩
  split
  · unfold readRomBank romAt
    rw [hc, h6]
    split
    · exact .inl ⟨_, _, rfl, rfl⟩
    · exact .inr (.inr ⟨_, rfl, rfl⟩)
  · rw [readRomFixed_eq, readRomFixed_eq, hc]; exact .inl ⟨_, _, rfl, rfl⟩

end Sys2Proof.Machine
end

