-- ==== Sys2Proof/Laws/Map.lean ====
section
/-! SUPPORT. What a legal register map gives the decoder: which addresses a row claims, and that no two rows claim one. -/

namespace Sys2Proof

theorem RegBlock.mem_all (b : RegBlock) : b ∈ RegBlock.all := by cases b <;> decide

/-- A row claims exactly the addresses from its base on. -/
theorem Config.claims_iff (c : Config) (b : RegBlock) (a : Address) :
    c.claims b a = true ↔ (c.base b).toNat ≤ a.toNat ∧ a.toNat < (c.base b).toNat + b.count := by
  simp [Config.claims]

@[simp] theorem Config.hits_eq_claims (c : Config) (b : RegBlock) (a : Address) : c.hits b a = c.claims b a := by
  unfold Config.hits; exact Eq.trans rfl rfl

/-- In a legal map every row lies in the register window. -/
theorem Config.legalMap_window {c : Config} (h : c.legalMap = true) (b : RegBlock) :
    0x2000 ≤ (c.base b).toNat ∧ (c.base b).toNat + b.count ≤ 0x3000 := by
  simp only [Config.legalMap, Bool.and_eq_true, List.all_eq_true] at h
  simpa [Config.inWindow] using h.1.1 b b.mem_all

/-- In a legal map two rows share no address. -/
theorem Config.legalMap_disjoint {c : Config} (h : c.legalMap = true) {b d : RegBlock} (hbd : b ≠ d) :
    (c.base b).toNat + b.count ≤ (c.base d).toNat ∨ (c.base d).toNat + d.count ≤ (c.base b).toNat := by
  simp only [Config.legalMap, Bool.and_eq_true, List.all_eq_true] at h
  have := h.1.2 b b.mem_all d d.mem_all
  simpa [Config.disjoint, hbd] using this

/-- In a legal map the LCD block starts at a multiple of 4. -/
theorem Config.legalMap_lcd {c : Config} (h : c.legalMap = true) : c.aLcd.toNat % 4 = 0 := by
  simp only [Config.legalMap, Bool.and_eq_true, decide_eq_true_eq] at h
  exact h.2

/-- In a legal map an address one row claims is claimed by no other. -/
theorem Config.claims_unique {c : Config} (h : c.legalMap = true) {b d : RegBlock} {a : Address}
    (hb : c.claims b a = true) (hbd : b ≠ d) : c.claims d a = false := by
  rw [Config.claims_iff] at hb
  rw [← Bool.not_eq_true, Config.claims_iff]
  have := Config.legalMap_disjoint h hbd
  omega

/-- A claimed address of a legal map is in the register window. -/
theorem Config.claims_window {c : Config} (h : c.legalMap = true) {b : RegBlock} {a : Address}
    (hb : c.claims b a = true) : 0x2000 ≤ a.toNat ∧ a.toNat ≤ 0x2FFF := by
  rw [Config.claims_iff] at hb
  have := Config.legalMap_window h b
  omega

/-- The address `r` places into a row of a legal map. -/
theorem Config.registerAt_toNat {c : Config} (h : c.legalMap = true) {b : RegBlock} {r : Nat} (hr : r < b.count) :
    (c.registerAt b r).toNat = (c.base b).toNat + r := by
  have := Config.legalMap_window h b
  simp only [Config.registerAt, BitVec.toNat_add, BitVec.toNat_ofNat]
  omega

/-- That address is claimed by its row, `r` places in. -/
theorem Config.claims_registerAt {c : Config} (h : c.legalMap = true) {b : RegBlock} {r : Nat} (hr : r < b.count) :
    c.claims b (c.registerAt b r) = true ∧ c.offset b (c.registerAt b r) = r := by
  rw [Config.claims_iff, Config.offset, Config.registerAt_toNat h hr]
  omega

/-! ### The fields of a word -/

@[simp] theorem wordKind_makeWord (k : BitVec 3) (a : Address) (v : Byte) : wordKind (makeWord k a v) = k := by
  simp only [wordKind, makeWord]
  ext i hi
  simp only [BitVec.getElem_extractLsb', BitVec.getLsbD_append]
  have h1 : ¬ 24 + i < 8 := by omega
  have h2 : ¬ 24 + i - 8 < 16 := by omega
  simp only [h1, h2, if_false]
  rw [show 24 + i - 8 - 16 = i by omega, BitVec.getLsbD_eq_getElem hi]

@[simp] theorem wordAddr_makeWord (k : BitVec 3) (a : Address) (v : Byte) : wordAddr (makeWord k a v) = a := by
  simp only [wordAddr, makeWord]
  ext i hi
  simp only [BitVec.getElem_extractLsb', BitVec.getLsbD_append]
  have h1 : ¬ 8 + i < 8 := by omega
  have h2 : 8 + i - 8 < 16 := by omega
  simp only [h1, h2, if_false, if_true]
  rw [show 8 + i - 8 = i by omega, BitVec.getLsbD_eq_getElem hi]

@[simp] theorem wordData_makeWord (k : BitVec 3) (a : Address) (v : Byte) : wordData (makeWord k a v) = v := by
  simp only [wordData, makeWord]
  ext i hi
  simp only [BitVec.getElem_extractLsb', BitVec.getLsbD_append]
  have h1 : 0 + i < 8 := by omega
  simp only [h1, if_true]
  rw [show 0 + i = i by omega, BitVec.getLsbD_eq_getElem hi]

/-- A word is its three fields. -/
theorem makeWord_fields (w : TransactionWord) : makeWord (wordKind w) (wordAddr w) (wordData w) = w := by
  simp only [wordKind, wordAddr, wordData, makeWord]
  ext i hi
  simp only [BitVec.getElem_append, BitVec.getElem_extractLsb']
  split
  · rw [Nat.zero_add, BitVec.getLsbD_eq_getElem hi]
  · split
    · rw [show 8 + (i - 8) = i by omega, BitVec.getLsbD_eq_getElem hi]
    · rw [show 24 + (i - 8 - 16) = i by omega, BitVec.getLsbD_eq_getElem hi]

end Sys2Proof
end

