-- ==== Sys2Proof/Laws/PerInstr.lean ====
section
/-! SUPPORT. A property of every instruction, one lemma per constructor: its word reads back as its operation (the level
of 30_encoding.md R90 and R91, before the address is decoded into a row). -/

namespace Sys2Proof

/-- The word of an operation reads back as the operation (30_encoding.md R91). -/
theorem decodeOperation_word (o : Operation) : decodeOperation o.word = .ok o := by
  cases o <;> simp [Operation.word, decodeOperation]

end Sys2Proof

namespace Sys2Proof.Laws.OperationWord

/-- The word an instruction encodes to decodes, as an operation, to the one the instruction stands for. -/
def Statement (i : Instr) : Prop := ∀ c : Config, decodeOperation (encode c i) = .ok (i.operation c)

theorem rdRam (a : BitVec 13) : Statement (.rdRam a) := fun _ => decodeOperation_word _
theorem rdLcd (a : BitVec 3) : Statement (.rdLcd a) := fun _ => decodeOperation_word _
theorem rdCtrl : Statement (.rdCtrl) := fun _ => decodeOperation_word _
theorem rdTimer : Statement (.rdTimer) := fun _ => decodeOperation_word _
theorem rdTack : Statement (.rdTack) := fun _ => decodeOperation_word _
theorem rdAack : Statement (.rdAack) := fun _ => decodeOperation_word _
theorem rdIrqstat : Statement (.rdIrqstat) := fun _ => decodeOperation_word _
theorem rdRegUnknown (a : BitVec 12) : Statement (.rdRegUnknown a) := fun _ => decodeOperation_word _
theorem rdUnmapped3 (a : BitVec 12) : Statement (.rdUnmapped3 a) := fun _ => decodeOperation_word _
theorem rdVram (a : BitVec 13) : Statement (.rdVram a) := fun _ => decodeOperation_word _
theorem rdUnmapped6 (a : BitVec 13) : Statement (.rdUnmapped6 a) := fun _ => decodeOperation_word _
theorem rdRomBank (a : BitVec 14) : Statement (.rdRomBank a) := fun _ => decodeOperation_word _
theorem rdRomFixed (a : BitVec 14) : Statement (.rdRomFixed a) := fun _ => decodeOperation_word _
theorem wrRam (a : BitVec 13) (v : Byte) : Statement (.wrRam a v) := fun _ => decodeOperation_word _
theorem wrLcd (a : BitVec 3) (v : Byte) : Statement (.wrLcd a v) := fun _ => decodeOperation_word _
theorem wrVdmaA (a : BitVec 2) (v : Byte) : Statement (.wrVdmaA a v) := fun _ => decodeOperation_word _
theorem wrVdmaB (a : BitVec 1) (v : Byte) : Statement (.wrVdmaB a v) := fun _ => decodeOperation_word _
theorem wrSq0R0 (v : Byte) : Statement (.wrSq0R0 v) := fun _ => decodeOperation_word _
theorem wrSq0R1 (v : Byte) : Statement (.wrSq0R1 v) := fun _ => decodeOperation_word _
theorem wrSq0R2 (v : Byte) : Statement (.wrSq0R2 v) := fun _ => decodeOperation_word _
theorem wrSq0R3 (v : Byte) : Statement (.wrSq0R3 v) := fun _ => decodeOperation_word _
theorem wrSq1R0 (v : Byte) : Statement (.wrSq1R0 v) := fun _ => decodeOperation_word _
theorem wrSq1R1 (v : Byte) : Statement (.wrSq1R1 v) := fun _ => decodeOperation_word _
theorem wrSq1R2 (v : Byte) : Statement (.wrSq1R2 v) := fun _ => decodeOperation_word _
theorem wrSq1R3 (v : Byte) : Statement (.wrSq1R3 v) := fun _ => decodeOperation_word _
theorem wrPcmR0 (v : Byte) : Statement (.wrPcmR0 v) := fun _ => decodeOperation_word _
theorem wrPcmR1 (v : Byte) : Statement (.wrPcmR1 v) := fun _ => decodeOperation_word _
theorem wrPcmR2 (v : Byte) : Statement (.wrPcmR2 v) := fun _ => decodeOperation_word _
theorem wrPcmR3 (v : Byte) : Statement (.wrPcmR3 v) := fun _ => decodeOperation_word _
theorem wrPcmR4 (v : Byte) : Statement (.wrPcmR4 v) := fun _ => decodeOperation_word _
theorem wrLink0 (v : Byte) : Statement (.wrLink0 v) := fun _ => decodeOperation_word _
theorem wrLink1 (v : Byte) : Statement (.wrLink1 v) := fun _ => decodeOperation_word _
theorem wrTimer (v : Byte) : Statement (.wrTimer v) := fun _ => decodeOperation_word _
theorem wrSysctl (v : Byte) : Statement (.wrSysctl v) := fun _ => decodeOperation_word _
theorem wrNoiseR0 (v : Byte) : Statement (.wrNoiseR0 v) := fun _ => decodeOperation_word _
theorem wrNoiseR1 (v : Byte) : Statement (.wrNoiseR1 v) := fun _ => decodeOperation_word _
theorem wrNoiseR2 (v : Byte) : Statement (.wrNoiseR2 v) := fun _ => decodeOperation_word _
theorem wrRegOther (a : BitVec 12) (v : Byte) : Statement (.wrRegOther a v) := fun _ => decodeOperation_word _
theorem wrUnmapped3 (a : BitVec 12) (v : Byte) : Statement (.wrUnmapped3 a v) := fun _ => decodeOperation_word _
theorem wrVram (a : BitVec 13) (v : Byte) : Statement (.wrVram a v) := fun _ => decodeOperation_word _
theorem wrUnmapped6 (a : BitVec 13) (v : Byte) : Statement (.wrUnmapped6 a v) := fun _ => decodeOperation_word _
theorem wrRomBank (a : BitVec 14) (v : Byte) : Statement (.wrRomBank a v) := fun _ => decodeOperation_word _
theorem wrRomFixed (a : BitVec 14) (v : Byte) : Statement (.wrRomFixed a v) := fun _ => decodeOperation_word _
theorem tick : Statement (.tick) := fun _ => decodeOperation_word _
theorem frame : Statement (.frame) := fun _ => decodeOperation_word _
theorem sample : Statement (.sample) := fun _ => decodeOperation_word _
theorem takeIrq : Statement (.takeIrq) := fun _ => decodeOperation_word _
theorem reset : Statement (.reset) := fun _ => decodeOperation_word _

end Sys2Proof.Laws.OperationWord
end

