-- ==== Sys2Proof/Laws/Decode.lean ====
section
/-! SUPPORT. Decoding said once: what a READ or WRITE word decodes to, and the row of each region of the address. -/

namespace Sys2Proof

/-- Decoding the word of an operation gives its row. -/
theorem decode_word (c : Config) (o : Operation) : decode c o.word = .ok (decodeRow c o) := by
  simp [decode, decodeOperation_word]

theorem readIs_iff (c : Config) (a : Address) (i : Instr) : ReadIs c a i ↔ decodeRead c a = i := by
  simp [ReadIs, decode, decodeOperation, decodeRow]

theorem writeIs_iff (c : Config) (a : Address) (v : Byte) (i : Instr) : WriteIs c a v i ↔ decodeWrite c a v = i := by
  simp [WriteIs, decode, decodeOperation, decodeRow]

/-! ### An address split into fixed high bits and an operand -/

theorem toNat_append_eq {n m : Nat} (x : BitVec n) (a : BitVec m) : (x ++ a).toNat = 2 ^ m * x.toNat + a.toNat := by
  rw [BitVec.toNat_append, Nat.shiftLeft_eq, Nat.mul_comm, ← Nat.two_pow_add_eq_or_of_lt a.isLt]

theorem setWidth_append_low {n m : Nat} (x : BitVec n) (a : BitVec m) : (x ++ a).setWidth m = a := by
  apply BitVec.eq_of_toNat_eq
  rw [BitVec.toNat_setWidth, toNat_append_eq, Nat.mul_add_mod, Nat.mod_eq_of_lt a.isLt]

/-- An address of a window is its fixed high bits followed by its low bits. -/
theorem append_setWidth_low {n m : Nat} (x : BitVec n) (a : BitVec (n + m)) (h : a.toNat / 2 ^ m = x.toNat) :
    x ++ a.setWidth m = a := by
  apply BitVec.eq_of_toNat_eq
  rw [toNat_append_eq, BitVec.toNat_setWidth, ← h]
  exact Nat.div_add_mod _ _

/-! ### The row of each region (20_memory.md R69) -/

section
variable {c : Config} {a : Address}

theorem decodeRead_ram (h : a.toNat ≤ 0x1FFF) : decodeRead c a = .rdRam (a.setWidth 13) := by
  unfold decodeRead; rw [if_pos h]

theorem decodeRead_register (h1 : 0x2000 ≤ a.toNat) (h2 : a.toNat ≤ 0x2FFF) :
    decodeRead c a = decodeReadRegister c a := by
  unfold decodeRead; rw [if_neg (by omega), if_pos h2]

theorem decodeRead_unmapped3 (h1 : 0x3000 ≤ a.toNat) (h2 : a.toNat ≤ 0x3FFF) :
    decodeRead c a = .rdUnmapped3 (a.setWidth 12) := by
  unfold decodeRead; rw [if_neg (by omega), if_neg (by omega), if_pos h2]

theorem decodeRead_vram (h1 : 0x4000 ≤ a.toNat) (h2 : a.toNat ≤ 0x5FFF) :
    decodeRead c a = .rdVram (a.setWidth 13) := by
  unfold decodeRead; rw [if_neg (by omega), if_neg (by omega), if_neg (by omega), if_pos h2]

theorem decodeRead_unmapped6 (h1 : 0x6000 ≤ a.toNat) (h2 : a.toNat ≤ 0x7FFF) :
    decodeRead c a = .rdUnmapped6 (a.setWidth 13) := by
  unfold decodeRead; rw [if_neg (by omega), if_neg (by omega), if_neg (by omega), if_neg (by omega), if_pos h2]

theorem decodeRead_romBank (h1 : 0x8000 ≤ a.toNat) (h2 : a.toNat ≤ 0xBFFF) :
    decodeRead c a = .rdRomBank (a.setWidth 14) := by
  unfold decodeRead
  rw [if_neg (by omega), if_neg (by omega), if_neg (by omega), if_neg (by omega), if_neg (by omega), if_pos h2]

theorem decodeRead_romFixed (h1 : 0xC000 ≤ a.toNat) : decodeRead c a = .rdRomFixed (a.setWidth 14) := by
  unfold decodeRead
  rw [if_neg (by omega), if_neg (by omega), if_neg (by omega), if_neg (by omega), if_neg (by omega),
    if_neg (by omega)]

variable {v : Byte}

theorem decodeWrite_ram (h : a.toNat ≤ 0x1FFF) : decodeWrite c a v = .wrRam (a.setWidth 13) v := by
  unfold decodeWrite; rw [if_pos h]

theorem decodeWrite_register (h1 : 0x2000 ≤ a.toNat) (h2 : a.toNat ≤ 0x2FFF) :
    decodeWrite c a v = decodeWriteRegister c a v := by
  unfold decodeWrite; rw [if_neg (by omega), if_pos h2]

theorem decodeWrite_unmapped3 (h1 : 0x3000 ≤ a.toNat) (h2 : a.toNat ≤ 0x3FFF) :
    decodeWrite c a v = .wrUnmapped3 (a.setWidth 12) v := by
  unfold decodeWrite; rw [if_neg (by omega), if_neg (by omega), if_pos h2]

theorem decodeWrite_vram (h1 : 0x4000 ≤ a.toNat) (h2 : a.toNat ≤ 0x5FFF) :
    decodeWrite c a v = .wrVram (a.setWidth 13) v := by
  unfold decodeWrite; rw [if_neg (by omega), if_neg (by omega), if_neg (by omega), if_pos h2]

theorem decodeWrite_unmapped6 (h1 : 0x6000 ≤ a.toNat) (h2 : a.toNat ≤ 0x7FFF) :
    decodeWrite c a v = .wrUnmapped6 (a.setWidth 13) v := by
  unfold decodeWrite; rw [if_neg (by omega), if_neg (by omega), if_neg (by omega), if_neg (by omega), if_pos h2]

theorem decodeWrite_romBank (h1 : 0x8000 ≤ a.toNat) (h2 : a.toNat ≤ 0xBFFF) :
    decodeWrite c a v = .wrRomBank (a.setWidth 14) v := by
  unfold decodeWrite
  rw [if_neg (by omega), if_neg (by omega), if_neg (by omega), if_neg (by omega), if_neg (by omega), if_pos h2]

theorem decodeWrite_romFixed (h1 : 0xC000 ≤ a.toNat) : decodeWrite c a v = .wrRomFixed (a.setWidth 14) v := by
  unfold decodeWrite
  rw [if_neg (by omega), if_neg (by omega), if_neg (by omega), if_neg (by omega), if_neg (by omega),
    if_neg (by omega)]

end

/-! ### The row of each register in a legal map (30_encoding.md R94, R95) -/

section
variable {c : Config} {a : Address} (h : c.legalMap = true)
include h

omit h in
theorem decodeReadRegister_lcd (hb : c.claims .lcd a = true) :
    decodeReadRegister c a = .rdLcd (BitVec.ofNat 3 (c.offset .lcd a)) := by
  simp only [decodeReadRegister, Config.hits_eq_claims, hb, if_true]

theorem decodeReadRegister_ctrl (hb : c.claims .ctrl a = true) :
    decodeReadRegister c a = .rdCtrl := by
  simp only [decodeReadRegister, Config.hits_eq_claims, hb, if_true,
    Config.claims_unique h (d := .lcd) hb (by decide), Bool.false_eq_true, if_false]

theorem decodeReadRegister_timer (hb : c.claims .timer a = true) :
    decodeReadRegister c a = .rdTimer := by
  simp only [decodeReadRegister, Config.hits_eq_claims, hb, if_true,
    Config.claims_unique h (d := .lcd) hb (by decide),
    Config.claims_unique h (d := .ctrl) hb (by decide), Bool.false_eq_true, if_false]

theorem decodeReadRegister_tack (hb : c.claims .tack a = true) :
    decodeReadRegister c a = .rdTack := by
  simp only [decodeReadRegister, Config.hits_eq_claims, hb, if_true,
    Config.claims_unique h (d := .lcd) hb (by decide),
    Config.claims_unique h (d := .ctrl) hb (by decide),
    Config.claims_unique h (d := .timer) hb (by decide), Bool.false_eq_true, if_false]

theorem decodeReadRegister_aack (hb : c.claims .aack a = true) :
    decodeReadRegister c a = .rdAack := by
  simp only [decodeReadRegister, Config.hits_eq_claims, hb, if_true,
    Config.claims_unique h (d := .lcd) hb (by decide),
    Config.claims_unique h (d := .ctrl) hb (by decide),
    Config.claims_unique h (d := .timer) hb (by decide),
    Config.claims_unique h (d := .tack) hb (by decide), Bool.false_eq_true, if_false]

theorem decodeReadRegister_irqstat (hb : c.claims .irqstat a = true) :
    decodeReadRegister c a = .rdIrqstat := by
  simp only [decodeReadRegister, Config.hits_eq_claims, hb, if_true,
    Config.claims_unique h (d := .lcd) hb (by decide),
    Config.claims_unique h (d := .ctrl) hb (by decide),
    Config.claims_unique h (d := .timer) hb (by decide),
    Config.claims_unique h (d := .tack) hb (by decide),
    Config.claims_unique h (d := .aack) hb (by decide), Bool.false_eq_true, if_false]

omit h in
theorem decodeWriteRegister_lcd (hb : c.claims .lcd a = true) (v : Byte) :
    decodeWriteRegister c a v = .wrLcd (BitVec.ofNat 3 (c.offset .lcd a)) v := by
  simp only [decodeWriteRegister, Config.hits_eq_claims, hb, if_true]

theorem decodeWriteRegister_vdma (hb : c.claims .vdma a = true) (v : Byte) :
    decodeWriteRegister c a v = decodeVdma (c.offset .vdma a) v := by
  simp only [decodeWriteRegister, Config.hits_eq_claims, hb, if_true,
    Config.claims_unique h (d := .lcd) hb (by decide), Bool.false_eq_true, if_false]

theorem decodeWriteRegister_sq0 (hb : c.claims .sq0 a = true) (v : Byte) :
    decodeWriteRegister c a v = decodeSquare0 (c.offset .sq0 a) v := by
  simp only [decodeWriteRegister, Config.hits_eq_claims, hb, if_true,
    Config.claims_unique h (d := .lcd) hb (by decide),
    Config.claims_unique h (d := .vdma) hb (by decide), Bool.false_eq_true, if_false]

theorem decodeWriteRegister_sq1 (hb : c.claims .sq1 a = true) (v : Byte) :
    decodeWriteRegister c a v = decodeSquare1 (c.offset .sq1 a) v := by
  simp only [decodeWriteRegister, Config.hits_eq_claims, hb, if_true,
    Config.claims_unique h (d := .lcd) hb (by decide),
    Config.claims_unique h (d := .vdma) hb (by decide),
    Config.claims_unique h (d := .sq0) hb (by decide), Bool.false_eq_true, if_false]

theorem decodeWriteRegister_pcm (hb : c.claims .pcm a = true) (v : Byte) :
    decodeWriteRegister c a v = decodePcm (c.offset .pcm a) v := by
  simp only [decodeWriteRegister, Config.hits_eq_claims, hb, if_true,
    Config.claims_unique h (d := .lcd) hb (by decide),
    Config.claims_unique h (d := .vdma) hb (by decide),
    Config.claims_unique h (d := .sq0) hb (by decide),
    Config.claims_unique h (d := .sq1) hb (by decide), Bool.false_eq_true, if_false]

theorem decodeWriteRegister_link (hb : c.claims .link a = true) (v : Byte) :
    decodeWriteRegister c a v = decodeLink (c.offset .link a) v := by
  simp only [decodeWriteRegister, Config.hits_eq_claims, hb, if_true,
    Config.claims_unique h (d := .lcd) hb (by decide),
    Config.claims_unique h (d := .vdma) hb (by decide),
    Config.claims_unique h (d := .sq0) hb (by decide),
    Config.claims_unique h (d := .sq1) hb (by decide),
    Config.claims_unique h (d := .pcm) hb (by decide), Bool.false_eq_true, if_false]

theorem decodeWriteRegister_timer (hb : c.claims .timer a = true) (v : Byte) :
    decodeWriteRegister c a v = .wrTimer v := by
  simp only [decodeWriteRegister, Config.hits_eq_claims, hb, if_true,
    Config.claims_unique h (d := .lcd) hb (by decide),
    Config.claims_unique h (d := .vdma) hb (by decide),
    Config.claims_unique h (d := .sq0) hb (by decide),
    Config.claims_unique h (d := .sq1) hb (by decide),
    Config.claims_unique h (d := .pcm) hb (by decide),
    Config.claims_unique h (d := .link) hb (by decide), Bool.false_eq_true, if_false]

theorem decodeWriteRegister_sysctl (hb : c.claims .sysctl a = true) (v : Byte) :
    decodeWriteRegister c a v = .wrSysctl v := by
  simp only [decodeWriteRegister, Config.hits_eq_claims, hb, if_true,
    Config.claims_unique h (d := .lcd) hb (by decide),
    Config.claims_unique h (d := .vdma) hb (by decide),
    Config.claims_unique h (d := .sq0) hb (by decide),
    Config.claims_unique h (d := .sq1) hb (by decide),
    Config.claims_unique h (d := .pcm) hb (by decide),
    Config.claims_unique h (d := .link) hb (by decide),
    Config.claims_unique h (d := .timer) hb (by decide), Bool.false_eq_true, if_false]

theorem decodeWriteRegister_noise (hb : c.claims .noise a = true) (v : Byte) :
    decodeWriteRegister c a v = decodeNoise (c.offset .noise a) v := by
  simp only [decodeWriteRegister, Config.hits_eq_claims, hb, if_true,
    Config.claims_unique h (d := .lcd) hb (by decide),
    Config.claims_unique h (d := .vdma) hb (by decide),
    Config.claims_unique h (d := .sq0) hb (by decide),
    Config.claims_unique h (d := .sq1) hb (by decide),
    Config.claims_unique h (d := .pcm) hb (by decide),
    Config.claims_unique h (d := .link) hb (by decide),
    Config.claims_unique h (d := .timer) hb (by decide),
    Config.claims_unique h (d := .sysctl) hb (by decide), Bool.false_eq_true, if_false]

omit h in
/-- No readable row claims the address: the catch-all row. -/
theorem decodeReadRegister_unknown (hn : ∀ b : RegBlock, b.readable = true → c.claims b a = false) :
    decodeReadRegister c a = .rdRegUnknown (a.setWidth 12) := by
  simp [decodeReadRegister, hn .lcd rfl, hn .ctrl rfl, hn .timer rfl, hn .tack rfl, hn .aack rfl, hn .irqstat rfl]

omit h in
/-- No writable row claims the address: the catch-all row. -/
theorem decodeWriteRegister_unknown (hn : ∀ b : RegBlock, b.writable = true → c.claims b a = false) (v : Byte) :
    decodeWriteRegister c a v = .wrRegOther (a.setWidth 12) v := by
  simp [decodeWriteRegister, hn .lcd rfl, hn .vdma rfl, hn .sq0 rfl, hn .sq1 rfl, hn .pcm rfl, hn .link rfl, hn .timer rfl, hn .sysctl rfl, hn .noise rfl]

end

end Sys2Proof
end

