-- ==== Sys2Proof/Laws/Sound.lean ====
section
/-! SUPPORT. What a step of each sound channel, a trigger and a tick can do, said once. -/

namespace Sys2Proof.Machine

/-! ### Square channels -/

/-- An inert channel contributes nothing and keeps its state (44_sound_sample.md R190). -/
theorem squareStep_inert {q : Square} (h : q.en = false ∨ q.size = 0) : squareStep q = (0, q) := by
  unfold squareStep
  rw [if_pos h]

/-- An active channel contributes by its position and advances (R190). -/
theorem squareStep_active {q : Square} (he : q.en = true) (hs : 0 < q.size) :
    squareStep q = (if q.pos < squareThreshold q.duty q.size then q.vol.toNat else 0, squareAdvance q) := by
  unfold squareStep
  rw [if_neg]
  simp only [he, Bool.true_eq_false, false_or]
  omega

/-- An advance inside the waveform. -/
theorem squareAdvance_inside {q : Square} (h : q.pos + 1 < q.size) : squareAdvance q = { q with pos := q.pos + 1 } := by
  unfold squareAdvance
  rw [if_neg (by omega)]

/-- An advance that wraps. -/
theorem squareAdvance_wrap {q : Square} (h : q.size ≤ q.pos + 1) :
    squareAdvance q = { q with pos := 0, len := q.len - 1, en := q.en && decide (0 < q.len - 1) } := by
  unfold squareAdvance
  rw [if_pos h]

/-- A step leaves the period, the size, the duty and the volume alone, and the length does not grow. -/
theorem squareStep_frame (q : Square) :
    (squareStep q).2.plo = q.plo ∧ (squareStep q).2.phi = q.phi ∧ (squareStep q).2.size = q.size ∧
      (squareStep q).2.duty = q.duty ∧ (squareStep q).2.vol = q.vol ∧ (squareStep q).2.len ≤ q.len := by
  unfold squareStep squareAdvance
  repeat' split
  all_goals simp

/-- A contribution is at most 15. -/
theorem squareStep_le (q : Square) : (squareStep q).1 ≤ 15 := by
  have := q.vol.isLt
  unfold squareStep
  repeat' split
  all_goals simp only; omega

/-! ### Noise channel -/

/-- A disabled channel is inert (R193). -/
theorem noiseStep_inert (c : Config) {n : Noise} (h : n.en = false) : noiseStep c n = ((0, 0), n) := by
  simp [noiseStep, h]

/-- A contribution is at most 15. -/
theorem noiseOut_le (n : Noise) : noiseOut n ≤ 15 := by
  have := n.vol.isLt
  unfold noiseOut
  split <;> omega

/-- Both contributions are at most 15. -/
theorem noiseStep_le (c : Config) (n : Noise) : (noiseStep c n).1.1 ≤ 15 ∧ (noiseStep c n).1.2 ≤ 15 := by
  have := noiseOut_le (noiseAdvance c n)
  unfold noiseStep
  split
  · constructor
    · simp only; split <;> omega
    · simp only; split <;> omega
  · simp

/-- The LFSR after an update is not zero: the guard reseeds it (R194). -/
theorem lfsrUpdate_ne_zero (m : Bool) (x : BitVec 15) : lfsrUpdate m x ≠ 0 := by
  unfold lfsrUpdate
  split
  · cases m <;> decide
  · assumption

/-- A 7-bit LFSR stays within 7 bits (44_sound_sample.md R195 (d)). -/
theorem lfsrUpdate_seven {x : BitVec 15} (h : x.toNat ≤ 0x7F) : (lfsrUpdate false x).toNat ≤ 0x7F := by
  have hx : x ≤ 0x7F#15 := by simpa [BitVec.le_def] using h
  suffices ∀ y : BitVec 15, y = lfsrShift false x → y.toNat ≤ 0x7F by
    unfold lfsrUpdate
    split
    · decide
    · exact this _ rfl
  intro y hy
  subst hy
  unfold lfsrShift
  split
  · simp only [Bool.false_eq_true, if_false, BitVec.toNat_or, BitVec.toNat_and, BitVec.toNat_ushiftRight]
    exact Nat.lt_succ_iff.mp
      (Nat.or_lt_two_pow (n := 7) (Nat.and_lt_two_pow (n := 7) _ (by decide)) (by decide))
  · simp only [BitVec.toNat_ushiftRight, Nat.shiftRight_eq_div_pow]
    omega

/-! ### PCM channel -/

/-- What a trigger write can do (43_sound_registers.md R178). -/
theorem pcmWriteR4_cases (s : State) (v : Byte) :
    pcmWriteR4 s v = .done () false s ∨
    pcmWriteR4 s v = .done () false (s.withPcm { s.pcm with trig := true }) ∨
    (∃ b d, pcmWriteR4 s v = .done () d (s.withPcm { pcmRestart s.pcm with byte := b, trig := true })) ∨
    (∃ b, pcmWriteR4 s v = .done () false ((disarmTimer s).withPcm { pcmRestart s.pcm with byte := b, trig := true })) ∨
    (∃ i, s.cfg.rom.size ≤ i ∧ pcmWriteR4 s v = .fault (.romIndexOutOfRange i)) := by
  unfold pcmWriteR4
  split
  · split
    · rw [busRead_withPcm]
      rcases busRead_cases s (pcmStart s.pcm) with ⟨b, d, h⟩ | ⟨b, h⟩ | ⟨i, hi, h⟩
      · rw [h]; exact .inr (.inr (.inl ⟨b, d, rfl⟩))
      · rw [h]; exact .inr (.inr (.inr (.inl ⟨b, rfl⟩)))
      · rw [h]; exact .inr (.inr (.inr (.inr ⟨i, hi, rfl⟩)))
    · exact .inr (.inl rfl)
  · exact .inl rfl

/-- What a step of the PCM channel can do (44_sound_sample.md R196). -/
theorem dmaStep_cases (s : State) :
    dmaStep s = .done 0 false s ∨
    dmaStep s = .done 0 false (s.withPcm { s.pcm with trig := false }) ∨
    (s.pcm.played < dmaTotal s.pcm.len ∧
      dmaStep s = .done (pcmHighNibble s.pcm.byte) false
        (s.withPcm { s.pcm with sel := true, played := s.pcm.played + 1 })) ∨
    (s.pcm.played < dmaTotal s.pcm.len ∧ ∃ b d, dmaStep s = .done (pcmLowNibble s.pcm.byte) d
      (s.withPcm { s.pcm with sel := false, cur := s.pcm.cur + 1, byte := b, played := s.pcm.played + 1 })) ∨
    (s.pcm.played < dmaTotal s.pcm.len ∧ ∃ b, dmaStep s = .done (pcmLowNibble s.pcm.byte) false
      ((disarmTimer s).withPcm
        { s.pcm with sel := false, cur := s.pcm.cur + 1, byte := b, played := s.pcm.played + 1 })) ∨
    (∃ i, s.cfg.rom.size ≤ i ∧ dmaStep s = .fault (.romIndexOutOfRange i)) := by
  unfold dmaStep
  split
  · exact .inl rfl
  split
  · exact .inr (.inl rfl)
  have hp : s.pcm.played < dmaTotal s.pcm.len := by omega
  split
  · exact .inr (.inr (.inl ⟨hp, rfl⟩))
  · rw [busRead_withPcm]
    rcases busRead_cases s (s.pcm.cur + 1) with ⟨b, d, h⟩ | ⟨b, h⟩ | ⟨i, hi, h⟩
    · rw [h]; exact .inr (.inr (.inr (.inl ⟨hp, b, d, rfl⟩)))
    · rw [h]; exact .inr (.inr (.inr (.inr (.inl ⟨hp, b, rfl⟩))))
    · rw [h]; exact .inr (.inr (.inr (.inr (.inr ⟨i, hi, rfl⟩))))

/-- A nibble is at most 15. -/
theorem pcmHighNibble_le (b : Byte) : pcmHighNibble b ≤ 15 := Nat.le_of_lt_succ (b.extractLsb' 4 4).isLt

/-- A nibble is at most 15. -/
theorem pcmLowNibble_le (b : Byte) : pcmLowNibble b ≤ 15 := Nat.le_of_lt_succ (b.extractLsb' 0 4).isLt

/-- A playback has at most 8192 nibble-samples. -/
theorem dmaTotal_le (len : Byte) : dmaTotal len ≤ 8192 := by
  have := len.isLt
  unfold dmaTotal dmaBytes
  split <;> omega

end Sys2Proof.Machine
end

