-- ==== Sys2Proof/Laws/Effects.lean ====
section
/-! SUPPORT. What the shared operations of TICK, the timer-value write, the ROM reads, the trigger write and SAMPLE can do
to the whole state, and when a bus read reports the diagnostic, said once: the provers cite these instead of unfolding the operation. -/

namespace Sys2Proof.Machine

/-- A bus read leaves the state, or clears `T.en` at one of the two acknowledging registers (20_memory.md R73). -/
theorem busRead_effect {s t : State} {a : Address} {b : Byte} {d : Bool} (h : busRead s a = .done b d t) :
    t = s ∨ (t = disarmTimer s ∧ (ReadIs s.cfg a .rdTack ∨ ReadIs s.cfg a .rdIrqstat)) := by
  unfold busRead at h
  split at h
  · cases h; exact .inl rfl
  split at h
  · simp only [readIs_iff]
    rw [decodeRead_register (by omega) (by omega)]
    unfold busReadRegister at h
    unfold decodeReadRegister
    repeat' split at h
    all_goals first | (cases h; exact .inl rfl) | skip
    all_goals
      cases h; refine .inr ⟨rfl, ?_⟩; simp_all
  split at h
  · cases h; exact .inl rfl
  split at h
  · cases h; exact .inl rfl
  split at h
  · cases h; exact .inl rfl
  split at h
  · unfold readRomBank at h
    rcases romAt_cases s (romBankIndex s.bank (a.setWidth 14)) with ⟨h1, h2⟩ | ⟨h1, h2⟩ <;> rw [h2] at h <;> cases h
    exact .inl rfl
  · rw [readRomFixed_eq] at h; cases h; exact .inl rfl

/-- The diagnostic of a bus read is set exactly where the address reads as an unknown register or an unmapped address
(60_exceptions.md R213). -/
theorem busRead_diag {s t : State} {a : Address} {b : Byte} {d : Bool} (h : busRead s a = .done b d t) :
    d = true ↔ ∃ j, ReadIs s.cfg a j ∧ j.isUnmapped = true := by
  simp only [readIs_iff, exists_eq_left']
  unfold busRead at h
  split at h
  · rw [decodeRead_ram ‹_›]; cases h; simp [Instr.isUnmapped]
  split at h
  · rw [decodeRead_register (by omega) ‹_›]
    unfold busReadRegister at h
    unfold decodeReadRegister
    repeat' split at h
    all_goals cases h; simp_all [Instr.isUnmapped]
  split at h
  · rw [decodeRead_unmapped3 (by omega) ‹_›]; cases h; simp [Instr.isUnmapped]
  split at h
  · rw [decodeRead_vram (by omega) ‹_›]; cases h; simp [Instr.isUnmapped]
  split at h
  · rw [decodeRead_unmapped6 (by omega) ‹_›]; cases h; simp [Instr.isUnmapped]
  split at h
  · rw [decodeRead_romBank (by omega) ‹_›]
    unfold readRomBank at h
    rcases romAt_cases s (romBankIndex s.bank (a.setWidth 14)) with ⟨h1, h2⟩ | ⟨h1, h2⟩ <;> rw [h2] at h <;> cases h
    simp [Instr.isUnmapped]
  · rw [decodeRead_romFixed (by omega)]
    rw [readRomFixed_eq] at h; cases h; simp [Instr.isUnmapped]

/-- An address that reads as an unknown register or an unmapped address never faults (60_exceptions.md R213). -/
theorem busRead_unmapped {s : State} {a : Address} (h : ∃ j, ReadIs s.cfg a j ∧ j.isUnmapped = true) :
    ∃ b t, busRead s a = .done b true t := by
  rcases busRead_cases s a with ⟨b, d, hb⟩ | ⟨b, hb⟩ | ⟨i, _, hb⟩
  · have hd := (busRead_diag hb).2 h; subst hd; exact ⟨_, _, hb⟩
  · exact absurd ((busRead_diag hb).2 h) (by decide)
  · simp only [readIs_iff, exists_eq_left'] at h
    unfold busRead at hb
    split at hb
    · cases hb
    split at hb
    · rcases busReadRegister_cases s a with ⟨_, _, h'⟩ | ⟨_, h'⟩ <;> rw [h'] at hb <;> cases hb
    split at hb
    · cases hb
    split at hb
    · cases hb
    split at hb
    · cases hb
    split at hb
    · rw [decodeRead_romBank (by omega) ‹_›] at h; exact absurd h (by simp [Instr.isUnmapped])
    · rw [readRomFixed_eq] at hb; cases hb

/-- SAMPLE reports a fault and changes nothing else; or steps the generators and the PCM channel; or does so having
cleared `T.en` by a fetch from an acknowledging register (44_sound_sample.md R196, R198). -/
theorem sampleState_effect (s : State) : ∃ r,
    sampleState s = s.withOut r ∨
    ∃ p, sampleState s = ((stepGenerators s).withPcm p).withOut r ∨
      (sampleState s = ((stepGenerators (disarmTimer s)).withPcm p).withOut r ∧
        (ReadIs s.cfg (s.pcm.cur + 1) .rdTack ∨ ReadIs s.cfg (s.pcm.cur + 1) .rdIrqstat)) := by
  unfold sampleState dmaStep
  split
  · rename_i d diag t h
    split at h
    · cases h; exact ⟨_, .inr ⟨s.pcm, .inl rfl⟩⟩
    split at h
    · cases h; exact ⟨_, .inr ⟨_, .inl rfl⟩⟩
    split at h
    · cases h; exact ⟨_, .inr ⟨_, .inl rfl⟩⟩
    split at h
    · rename_i hb
      rcases busRead_effect hb with h' | ⟨h', h''⟩
      · subst h'; cases h; exact ⟨_, .inr ⟨_, .inl rfl⟩⟩
      · subst h'; cases h; exact ⟨_, .inr ⟨_, .inr ⟨rfl, by simpa using h''⟩⟩⟩
    · cases h
  · exact ⟨_, .inl rfl⟩

/-- A trigger write changes the PCM channel at most; or does so having cleared `T.en` by its fetch (R178). -/
theorem triggerWrite_effect (s : State) (v : Byte) : ∃ r p,
    finishFetchingWrite s (pcmWriteR4 s v) = (s.withPcm p).withOut r ∨
    (finishFetchingWrite s (pcmWriteR4 s v) = ((disarmTimer s).withPcm p).withOut r ∧
      (ReadIs s.cfg (s.pcm.ahi ++ s.pcm.alo) .rdTack ∨ ReadIs s.cfg (s.pcm.ahi ++ s.pcm.alo) .rdIrqstat)) := by
  unfold pcmWriteR4
  split
  · split
    · split
      · rename_i hb
        rcases busRead_effect hb with h' | ⟨h', h''⟩
        · subst h'; exact ⟨_, _, .inl rfl⟩
        · subst h'; exact ⟨_, _, .inr ⟨rfl, by simpa [pcmStart] using h''⟩⟩
      · exact ⟨_, s.pcm, .inl rfl⟩
    · exact ⟨_, _, .inl rfl⟩
  · exact ⟨_, s.pcm, .inl rfl⟩

/-- A read of the switchable window changes the result alone. -/
theorem readRomBank_effect (s : State) (a : BitVec 14) : ∃ r, finishRead s (readRomBank s a) = s.withOut r := by
  unfold readRomBank
  rcases romAt_cases s (romBankIndex s.bank a) with ⟨h1, h2⟩ | ⟨h1, h2⟩ <;> rw [h2]
  exacts [⟨_, rfl⟩, ⟨_, rfl⟩]

/-- A read of the fixed window changes the result alone. -/
theorem readRomFixed_effect (s : State) (a : BitVec 14) : ∃ r, finishRead s (readRomFixed s a) = s.withOut r := by
  rw [readRomFixed_eq]; exact ⟨_, rfl⟩

/-- A timer-value write that does not fire. -/
theorem writeTimer_quiet {s : State} {v : Byte} (h : ¬ (v = 0 ∧ s.timer.en = true)) :
    writeTimer s v = s.withTimer { s.timer with cnt := v, acc := 0 } := by
  have : timerWriteFires s.timer v = false := by simpa [timerWriteFires] using h
  simp only [writeTimer, this, Bool.false_eq_true, if_false]

/-- A timer-value write that fires. -/
theorem writeTimer_fires {s : State} {v : Byte} (h0 : v = 0) (he : s.timer.en = true) :
    writeTimer s v = (s.withTimer { s.timer with cnt := v, acc := 0, en := false }).withIrqPend true := by
  have : timerWriteFires s.timer v = true := by simp [timerWriteFires, h0, he]
  simp [writeTimer, this, raiseIrq]

/-- A count that does not fire leaves the enabled flag and the prescaler select. -/
theorem timerCount_flags (t : Timer) : (timerCount t).en = t.en ∧ (timerCount t).slow = t.slow := by
  unfold timerCount
  split
  · split <;> exact ⟨rfl, rfl⟩
  · exact ⟨rfl, rfl⟩

/-- A TICK fires, or counts and changes the timer alone (42_timer_irq.md R150). -/
theorem execTick_effect (s : State) :
    (s.timer.en = true ∧ s.timer.cnt = 0 ∧
      execTick s = .next (((s.withTimer { s.timer with en := false }).withIrqPend true).withOut .none)) ∨
    (¬ (s.timer.en = true ∧ s.timer.cnt = 0) ∧
      execTick s = .next ((s.withTimer (timerCount s.timer)).withOut .none)) := by
  by_cases h : tickFires s.timer = true
  · have h' := h
    simp only [tickFires, Bool.and_eq_true, decide_eq_true_eq] at h'
    exact .inl ⟨h'.1, h'.2, by simp [execTick, h, raiseIrq]⟩
  · have h' := h
    simp only [tickFires, Bool.and_eq_true, decide_eq_true_eq] at h'
    exact .inr ⟨h', by simp [execTick, h]⟩

end Sys2Proof.Machine
end

