-- ==== Sys2Proof/Tests/Slice0.lean ====
section
/-! SUPPORT. Tests: the checks of WellFormed refuse what is ill formed; each constructor decodes from a word written out
from 30_encoding.md; each instruction does on a small state what the spec's examples say (95_test_vectors.md and the
examples of the rules, cited at each test); and for each statement with hypotheses a state that meets them. -/

open Sys2Proof Sys2Proof.Machine

/-! ### Helpers -/

/-- `TESTDIV` of 95_test_vectors.md: test data, not the hardware's table. -/
def Tests.divisors : Vector Nat 16 :=
  #v[8, 16, 32, 64, 128, 256, 512, 1024, 2048, 4096, 8192, 16384, 32768, 65536, 131072, 131072]

/-- A configuration with a ROM of `size` bytes (at least 16384) of which the listed ones are known. -/
def Tests.config (size : Nat) (cells : List Host.Cell) : Config :=
  { Config.default with rom := { extra := size - 16384, cells := cells }, noiseDiv := Tests.divisors }

/-- The state after RESET under such a configuration. -/
def Tests.start (size : Nat) (cells : List Host.Cell) : State := { State.reset with cfg := Tests.config size cells }

/-- The state after RESET, with a ROM of 32768 bytes. -/
def Tests.plain : State := Tests.start 32768 []

/-- That state with the timer as given. -/
def Tests.timed (en slow : Bool) (cnt : Byte) (acc : Nat) : State :=
  Tests.plain.withTimer { en := en, slow := slow, cnt := cnt, acc := acc }

/-- A square channel of size 5 (period 16) at its start: length 2, volume 15, enabled. -/
def Tests.square (duty : BitVec 2) : Square :=
  { plo := 0x10, phi := 0, size := 5, pos := 0, en := true, duty := duty, vol := 15, len := 2 }

/-- A noise channel just set up by register 2: frequency code 0, volume 15, length 5. -/
def Tests.noise (left right cont : Bool) : Noise :=
  { freq := 0, vol := 15, len := 5, en := true, left := left, right := right, cont := cont, m15 := false,
    lfsr := 0x007F, pos := 0 }

/-- A playback of 16 bytes from 0x0100 with 0xA5 fetched. -/
def Tests.playing (sel : Bool) (played : Nat) : Pcm :=
  { Pcm.reset with ahi := 0x01, len := 1, trig := true, cur := 0x0100, byte := 0xA5, sel := sel, played := played }

/-- What an instruction returns, if it goes on. -/
def Tests.result (i : Instr) (s : State) : Option Response := (nextState (exec i s)).map (·.out)

/-- The fault an answer reports, if any. -/
def Tests.faultOf : Answer Byte → Option Fault
  | .done _ _ _ => none
  | .fault f => some f

theorem Tests.eq_fault {x : Answer Byte} {f : Fault} (h : Tests.faultOf x = some f) : x = .fault f := by
  cases x with
  | done b d t => cases h
  | fault g => simpa [Tests.faultOf] using h

/-! ### WellFormed refuses what is ill formed (00_scope.md R8, R10, R12, 30_encoding.md R95) -/

theorem test_default_map_is_legal : Config.default.legalMap = true := by decide
theorem test_map_below_the_window_is_refused : (Config.legalMap { Config.default with aCtrl := 0x1FFF }) = false := by
  decide
theorem test_map_above_the_window_is_refused : (Config.legalMap { Config.default with aNoise := 0x2FFE }) = false := by
  decide
theorem test_map_with_a_shared_address_is_refused : (Config.legalMap { Config.default with aSq1 := 0x2013 }) = false := by
  decide
theorem test_map_with_an_unaligned_lcd_block_is_refused :
    (Config.legalMap { Config.default with aLcd := 0x2101 }) = false := by decide
theorem test_map_with_an_aligned_lcd_block_is_accepted :
    (Config.legalMap { Config.default with aLcd := 0x2104 }) = true := by decide
theorem test_rom_cells_out_of_order_are_refused : (Rom.wf { extra := 0, cells := [(1, 0), (0, 0)] }) = false := by decide
theorem test_rom_cell_beyond_the_size_is_refused : (Rom.wf { extra := 0, cells := [(16384, 0)] }) = false := by decide
theorem test_rom_last_cell_is_accepted : (Rom.wf { extra := 0, cells := [(16383, 0)] }) = true := by decide
theorem test_zero_noise_divisor_is_refused :
    (Config.legal { Tests.config 16384 [] with noiseDiv := Vector.replicate 16 0, dmaDiv := Vector.replicate 4 1 }) =
      false := by decide
theorem test_zero_dma_divisor_is_refused :
    (Config.legal { Tests.config 16384 [] with dmaDiv := Vector.replicate 4 0 }) = false := by decide
theorem test_positive_divisors_are_accepted :
    (Config.legal { Tests.config 16384 [] with dmaDiv := Vector.replicate 4 1 }) = true := by decide
theorem test_unknown_read_of_a_register_is_refused : (Instr.rdRegUnknown 0x023).wellFormed Config.default = false := by
  decide
theorem test_other_write_of_a_register_is_refused : (Instr.wrRegOther 0x023 0).wellFormed Config.default = false := by
  decide
theorem test_short_image_is_refused : romOfImage (List.replicate 3 0) = none := by decide

/-! ### Every constructor from a word written out from the spec (30_encoding.md R90, R91, R94; 95_test_vectors.md 2.1 to
2.5) -/

theorem test_decode_rdRam : decodeTableWord 32 0x01FFF00 = some (.rdRam 0x1FFF) := by decide
theorem test_decode_rdLcd : decodeTableWord 32 0x0200500 = some (.rdLcd 5) := by decide
theorem test_decode_rdCtrl : decodeTableWord 32 0x0202000 = some (.rdCtrl) := by decide
theorem test_decode_rdTimer : decodeTableWord 32 0x0202300 = some (.rdTimer) := by decide
theorem test_decode_rdTack : decodeTableWord 32 0x0202400 = some (.rdTack) := by decide
theorem test_decode_rdAack : decodeTableWord 32 0x0202500 = some (.rdAack) := by decide
theorem test_decode_rdIrqstat : decodeTableWord 32 0x0202700 = some (.rdIrqstat) := by decide
theorem test_decode_rdRegUnknown : decodeTableWord 32 0x02FFF00 = some (.rdRegUnknown 0xFFF) := by decide
theorem test_decode_rdUnmapped3 : decodeTableWord 32 0x03FFF00 = some (.rdUnmapped3 0xFFF) := by decide
theorem test_decode_rdVram : decodeTableWord 32 0x05FFF00 = some (.rdVram 0x1FFF) := by decide
theorem test_decode_rdUnmapped6 : decodeTableWord 32 0x07FFF00 = some (.rdUnmapped6 0x1FFF) := by decide
theorem test_decode_rdRomBank : decodeTableWord 32 0x0800500 = some (.rdRomBank 5) := by decide
theorem test_decode_rdRomFixed : decodeTableWord 32 0x0FFFFAB = some (.rdRomFixed 0x3FFF) := by decide
theorem test_decode_wrRam : decodeTableWord 32 0x11FFFC3 = some (.wrRam 0x1FFF 0xC3) := by decide
theorem test_decode_wrLcd : decodeTableWord 32 0x1200550 = some (.wrLcd 5 0x50) := by decide
theorem test_decode_wrVdmaA : decodeTableWord 32 0x1200812 = some (.wrVdmaA 0 0x12) := by decide
theorem test_decode_wrVdmaB : decodeTableWord 32 0x1200D12 = some (.wrVdmaB 1 0x12) := by decide
theorem test_decode_wrSq0R0 : decodeTableWord 32 0x1201064 = some (.wrSq0R0 0x64) := by decide
theorem test_decode_wrSq0R1 : decodeTableWord 32 0x12011F8 = some (.wrSq0R1 0xF8) := by decide
theorem test_decode_wrSq0R2 : decodeTableWord 32 0x120126F = some (.wrSq0R2 0x6F) := by decide
theorem test_decode_wrSq0R3 : decodeTableWord 32 0x12013FF = some (.wrSq0R3 0xFF) := by decide
theorem test_decode_wrSq1R0 : decodeTableWord 32 0x12014FF = some (.wrSq1R0 0xFF) := by decide
theorem test_decode_wrSq1R1 : decodeTableWord 32 0x12015FB = some (.wrSq1R1 0xFB) := by decide
theorem test_decode_wrSq1R2 : decodeTableWord 32 0x1201675 = some (.wrSq1R2 0x75) := by decide
theorem test_decode_wrSq1R3 : decodeTableWord 32 0x1201700 = some (.wrSq1R3 0x00) := by decide
theorem test_decode_wrPcmR0 : decodeTableWord 32 0x1201834 = some (.wrPcmR0 0x34) := by decide
theorem test_decode_wrPcmR1 : decodeTableWord 32 0x1201912 = some (.wrPcmR1 0x12) := by decide
theorem test_decode_wrPcmR2 : decodeTableWord 32 0x1201A01 = some (.wrPcmR2 0x01) := by decide
theorem test_decode_wrPcmR3 : decodeTableWord 32 0x1201B7F = some (.wrPcmR3 0x7F) := by decide
theorem test_decode_wrPcmR4 : decodeTableWord 32 0x1201C80 = some (.wrPcmR4 0x80) := by decide
theorem test_decode_wrLink0 : decodeTableWord 32 0x1202112 = some (.wrLink0 0x12) := by decide
theorem test_decode_wrLink1 : decodeTableWord 32 0x1202212 = some (.wrLink1 0x12) := by decide
theorem test_decode_wrTimer : decodeTableWord 32 0x1202302 = some (.wrTimer 0x02) := by decide
theorem test_decode_wrSysctl : decodeTableWord 32 0x1202660 = some (.wrSysctl 0x60) := by decide
theorem test_decode_wrNoiseR0 : decodeTableWord 32 0x120283A = some (.wrNoiseR0 0x3A) := by decide
theorem test_decode_wrNoiseR1 : decodeTableWord 32 0x1202910 = some (.wrNoiseR1 0x10) := by decide
theorem test_decode_wrNoiseR2 : decodeTableWord 32 0x1202A1E = some (.wrNoiseR2 0x1E) := by decide
theorem test_decode_wrRegOther : decodeTableWord 32 0x1200E12 = some (.wrRegOther 0x00E 0x12) := by decide
theorem test_decode_wrUnmapped3 : decodeTableWord 32 0x1300001 = some (.wrUnmapped3 0 0x01) := by decide
theorem test_decode_wrVram : decodeTableWord 32 0x15FFF22 = some (.wrVram 0x1FFF 0x22) := by decide
theorem test_decode_wrUnmapped6 : decodeTableWord 32 0x1600001 = some (.wrUnmapped6 0 0x01) := by decide
theorem test_decode_wrRomBank : decodeTableWord 32 0x18000FF = some (.wrRomBank 0 0xFF) := by decide
theorem test_decode_wrRomFixed : decodeTableWord 32 0x1FFFFFF = some (.wrRomFixed 0x3FFF 0xFF) := by decide
theorem test_decode_tick : decodeTableWord 32 0x2ABCDEF = some (.tick) := by decide
theorem test_decode_frame : decodeTableWord 32 0x3000000 = some (.frame) := by decide
theorem test_decode_sample : decodeTableWord 32 0x4000000 = some (.sample) := by decide
theorem test_decode_takeIrq : decodeTableWord 32 0x5000000 = some (.takeIrq) := by decide
theorem test_decode_reset : decodeTableWord 32 0x6000000 = some (.reset) := by decide
theorem test_decode_reserved_kind_is_refused : decodeTableWord 32 0x7FFFFFF = none := by decide
theorem test_decode_longer_number_is_refused : decodeTableWord 32 0x8000000 = none := by decide
theorem test_decode_first_and_last_of_each_window :
    [0x0000000, 0x01FFF00, 0x0200000, 0x0300000, 0x0400000, 0x0600000, 0x0800000, 0x0BFFF00, 0x0C00000].map
        (decodeTableWord 32) =
      [some (.rdRam 0), some (.rdRam 0x1FFF), some (.rdLcd 0), some (.rdUnmapped3 0), some (.rdVram 0),
        some (.rdUnmapped6 0), some (.rdRomBank 0), some (.rdRomBank 0x3FFF), some (.rdRomFixed 0)] := by decide
theorem test_encode_sysctl : encode Config.default (.wrSysctl 0x60) = 0x1202660 := by decide
theorem test_encode_vdma_last : encode Config.default (.wrVdmaB 1 0x12) = 0x1200D12 := by decide

/-! ### READ (40_bus_read.md) -/

/-- R111's example. -/
theorem test_rdRam : Tests.result (.rdRam 0x1FFF) (Tests.plain.withRam [(0x1FFF, 0xA5)]) = some (.byte 0xA5 false) := by
  decide
/-- R112's example: X-scroll through the primary address. -/
theorem test_rdLcd :
    Tests.result (.rdLcd 2) (Tests.plain.withLcd { hsize := 0, vsize := 0, xscroll := 0x1C, yscroll := 0 }) =
      some (.byte 0x1C false) := by decide
/-- R112: the mirror of the vertical size. -/
theorem test_rdLcd_mirror :
    Tests.result (.rdLcd 5) (Tests.plain.withLcd { hsize := 0xA0, vsize := 0x50, xscroll := 0, yscroll := 0 }) =
      some (.byte 0x50 false) := by decide
/-- R113's examples: A held; Start and Right held. -/
theorem test_rdCtrl_a : Tests.result .rdCtrl (Tests.plain.withKeys 0x20) = some (.byte 0xDF false) := by decide
theorem test_rdCtrl_two : Tests.result .rdCtrl (Tests.plain.withKeys 0x81) = some (.byte 0x7E false) := by decide
/-- R114. -/
theorem test_rdTimer : Tests.result .rdTimer (Tests.timed true false 3 0) = some (.byte 0x03 false) := by decide
/-- R115's example. -/
theorem test_rdTack :
    (nextState (exec .rdTack (Tests.timed true false 9 0))).map (fun t => (t.out, t.timer.en, t.timer.cnt)) =
      some (.byte 0x01 false, false, 9) := by decide
/-- R116. -/
theorem test_rdAack :
    (nextState (exec .rdAack (Tests.timed true false 9 0))).map (fun t => (t.out, t.timer.en)) =
      some (.byte 0x00 false, true) := by decide
/-- R117's example. -/
theorem test_rdIrqstat :
    (nextState (exec .rdIrqstat ((Tests.timed true false 9 0).withIrqPend true))).map
      (fun t => (t.out, t.timer.en, t.irqPend)) = some (.byte 0x03 false, false, true) := by decide
/-- R118's example. -/
theorem test_rdRegUnknown : Tests.result (.rdRegUnknown 0x026) Tests.plain = some (.byte 0xFF true) := by decide
/-- R122, and its example. -/
theorem test_rdUnmapped3 : Tests.result (.rdUnmapped3 0) Tests.plain = some (.byte 0xFF true) := by decide
theorem test_rdUnmapped6 : Tests.result (.rdUnmapped6 0) Tests.plain = some (.byte 0xFF true) := by decide
/-- R119's example. -/
theorem test_rdVram : Tests.result (.rdVram 0) (Tests.plain.withVram [(0, 0x3C)]) = some (.byte 0x3C false) := by decide
/-- R120's example: bank 3 of a 65536-byte ROM, index 49157. -/
theorem test_rdRomBank :
    Tests.result (.rdRomBank 5) ((Tests.start 65536 [(49157, 0xC5)]).withBank 3) = some (.byte 0xC5 false) := by decide
/-- R210's example: bank 2 of a 32768-byte ROM. -/
theorem test_rdRomBank_fault :
    Tests.result (.rdRomBank 0) (Tests.plain.withBank 2) = some (.faulted (.romIndexOutOfRange 32768)) := by decide
/-- R121's example. -/
theorem test_rdRomFixed :
    Tests.result (.rdRomFixed 5) ((Tests.start 65536 [(49157, 0xC5)]).withBank 1) = some (.byte 0xC5 false) := by decide
/-- 95_test_vectors.md 2.2, a ROM of 20000 bytes: 0xC000 is `ROM[3616]`. -/
theorem test_rdRomFixed_odd_size :
    Tests.result (.rdRomFixed 0) (Tests.start 20000 [(3616, 0x07)]) = some (.byte 0x07 false) := by decide

/-! ### WRITE (41_bus_write.md) -/

/-- R131's example. -/
theorem test_wrRam : (nextState (exec (.wrRam 0 0xFF) Tests.plain)).map (·.ram) = some [(0, 0xFF)] := by decide
/-- A second store to one index replaces, one to a lower index goes before. -/
theorem test_wrRam_keeps_the_form :
    (nextState (exec (.wrRam 5 2) (Tests.plain.withRam [(5, 1), (9, 9)]))).map (·.ram) = some [(5, 2), (9, 9)] ∧
    (nextState (exec (.wrRam 4 2) (Tests.plain.withRam [(5, 1), (9, 9)]))).map (·.ram) =
      some [(4, 2), (5, 1), (9, 9)] := by decide
/-- R132's example and the mirror of the vertical size. -/
theorem test_wrLcd : (nextState (exec (.wrLcd 4 0xA0) Tests.plain)).map (·.lcd.hsize) = some 0xA0 := by decide
theorem test_wrLcd_mirror : (nextState (exec (.wrLcd 5 0x50) Tests.plain)).map (·.lcd.vsize) = some 0x50 := by decide
/-- R133. -/
theorem test_wrVdmaA : Tests.result (.wrVdmaA 0 0x12) Tests.plain = some (.ack false) := by decide
theorem test_wrVdmaB : Tests.result (.wrVdmaB 1 0x80) Tests.plain = some (.ack false) := by decide
theorem test_wrLink0 : Tests.result (.wrLink0 0x12) Tests.plain = some (.ack false) := by decide
theorem test_wrLink1 : Tests.result (.wrLink1 0x12) Tests.plain = some (.ack false) := by decide
/-- R135's example. -/
theorem test_wrTimer_fires :
    (nextState (exec (.wrTimer 0) (Tests.timed true true 7 2560))).map (fun t => (t.irqPend, t.timer)) =
      some (true, { en := false, slow := true, cnt := 0, acc := 0 }) := by decide
/-- 95_test_vectors.md 2.4: the write clears the accumulator. -/
theorem test_wrTimer_clears_the_accumulator :
    (nextState (exec (.wrTimer 5) (Tests.timed true true 7 2560))).map (fun t => (t.irqPend, t.timer)) =
      some (false, { en := true, slow := true, cnt := 5, acc := 0 }) := by decide
/-- R134's example. -/
theorem test_wrSysctl :
    (nextState (exec (.wrSysctl 0x72) Tests.plain)).map (fun t => (t.bank, t.nmiEn, t.timer.en, t.timer.slow)) =
      some (3, false, true, true) := by decide
/-- 95_test_vectors.md 2.3: both enable bits leave the timer disabled. -/
theorem test_wrSysctl_both_bits :
    (nextState (exec (.wrSysctl 0xFF) Tests.plain)).map (fun t => (t.bank, t.nmiEn, t.timer.en, t.timer.slow)) =
      some (7, true, false, true) := by decide
/-- R139's example: it acknowledges nothing. -/
theorem test_wrRegOther :
    (nextState (exec (.wrRegOther 0x024 0) (Tests.timed true false 9 0))).map (fun t => (t.out, t.timer.en)) =
      some (.ack true, true) := by decide
/-- R140. -/
theorem test_wrUnmapped3 : Tests.result (.wrUnmapped3 0 1) Tests.plain = some (.ack true) := by decide
theorem test_wrUnmapped6 : Tests.result (.wrUnmapped6 0x1000 0x55) Tests.plain = some (.ack true) := by decide
/-- R137's example. -/
theorem test_wrVram : (nextState (exec (.wrVram 0x1FFF 0x01) Tests.plain)).map (·.vram) = some [(0x1FFF, 0x01)] := by
  decide
/-- R138. -/
theorem test_wrRomBank : Tests.result (.wrRomBank 0 0xFF) (Tests.plain.withBank 7) = some (.ack false) := by decide
theorem test_wrRomFixed : Tests.result (.wrRomFixed 0 0x12) Tests.plain = some (.ack false) := by decide

/-! ### The timer (42_timer_irq.md) -/

/-- R150's example, its second and third TICK. -/
theorem test_tick_fires :
    (nextState (exec .tick (Tests.timed true false 0 0))).map (fun t => (t.irqPend, t.timer.en, t.timer.cnt)) =
      some (true, false, 0) := by decide
theorem test_tick_wraps_when_disabled :
    (nextState (exec .tick (Tests.timed false false 0 0))).map (fun t => (t.irqPend, t.timer.cnt)) =
      some (false, 0xFF) := by decide
/-- R153's examples. -/
theorem test_frame : Tests.result .frame (Tests.plain.withNmiEn true) = some (.nmi true) := by decide
/-- R154's example. -/
theorem test_takeIrq :
    (nextState (exec .takeIrq (Tests.plain.withIrqPend true))).map (fun t => (t.out, t.irqPend)) =
      some (.irq true, false) := by decide

/-! ### Sound registers (43_sound_registers.md; 95_test_vectors.md 2.5) -/

theorem test_wrSq0R0 :
    (nextState (exec (.wrSq0R0 0x64) Tests.plain)).map (fun t => (t.sq0.plo, t.sq0.size, t.sq1.size)) =
      some (0x64, 35, 0) := by decide
theorem test_wrSq0R1 :
    (nextState (exec (.wrSq0R1 0xF8) (Tests.plain.withSq0 (Tests.square 0)))).map (fun t => (t.sq0.phi, t.sq0.size)) =
      some (0, 5) := by decide
theorem test_wrSq0R2 :
    (nextState (exec (.wrSq0R2 0x6F) Tests.plain)).map (fun t => (t.sq0.en, t.sq0.duty, t.sq0.vol, t.sq1.en)) =
      some (true, 2, 15, false) := by decide
theorem test_wrSq0R3 : (nextState (exec (.wrSq0R3 0xFF) Tests.plain)).map (·.sq0.len) = some 256 := by decide
theorem test_wrSq1R0 :
    (nextState (exec (.wrSq1R0 0xFF) Tests.plain)).map (fun t => (t.sq1.plo, t.sq1.size, t.sq0.size)) =
      some (0xFF, 90, 0) := by decide
/-- R168's example. -/
theorem test_wrSq1R1 :
    (nextState (exec (.wrSq1R1 0xFB) (Tests.plain.withSq1 { Square.reset with plo := 0xFF, pos := 4 }))).map
      (fun t => (t.sq1.phi, t.sq1.size, t.sq1.pos)) = some (3, 361, 0) := by decide
theorem test_wrSq1R2 :
    (nextState (exec (.wrSq1R2 0xBF) Tests.plain)).map (fun t => (t.sq1.en, t.sq1.duty, t.sq1.vol)) =
      some (false, 3, 15) := by decide
theorem test_wrSq1R3 : (nextState (exec (.wrSq1R3 0x00) Tests.plain)).map (·.sq1.len) = some 1 := by decide
theorem test_wrNoiseR0 :
    (nextState (exec (.wrNoiseR0 0x3A) Tests.plain)).map (fun t => (t.noise.freq, t.noise.vol)) = some (3, 10) := by
  decide
theorem test_wrNoiseR1 : (nextState (exec (.wrNoiseR1 0x10) Tests.plain)).map (·.noise.len) = some 16 := by decide
theorem test_wrNoiseR2 :
    (nextState (exec (.wrNoiseR2 0x1E) Tests.plain)).map (·.noise) =
      some { Noise.reset with en := true, left := true, right := true, cont := true, m15 := false, lfsr := 0x007F } := by
  decide
theorem test_wrNoiseR2_wide :
    (nextState (exec (.wrNoiseR2 0x1D) Tests.plain)).map (·.noise) =
      some { Noise.reset with en := true, left := true, right := true, cont := false, m15 := true, lfsr := 0x7FFF } := by
  decide
theorem test_wrPcmR0 : (nextState (exec (.wrPcmR0 0x34) Tests.plain)).map (·.pcm.alo) = some 0x34 := by decide
theorem test_wrPcmR1 : (nextState (exec (.wrPcmR1 0x12) Tests.plain)).map (·.pcm.ahi) = some 0x12 := by decide
theorem test_wrPcmR2 :
    (nextState (exec (.wrPcmR2 0x00) (Tests.plain.withPcm (Tests.playing false 0)))).map
      (fun t => (t.pcm.len, dmaBytes t.pcm.len)) = some (0, 4096) := by decide
theorem test_wrPcmR3 :
    (nextState (exec (.wrPcmR3 0x7F) Tests.plain)).map (fun t => (t.pcm.bank, t.pcm.left, t.pcm.right, t.pcm.freq)) =
      some (7, true, true, 3) := by decide
/-- R178's example. -/
theorem test_wrPcmR4 :
    (nextState (exec (.wrPcmR4 0x80) ((Tests.plain.withRam [(0x0100, 0xA5)]).withPcm
      { Pcm.reset with ahi := 0x01, len := 1 }))).map (·.pcm) = some (Tests.playing false 0) := by decide
/-- R178, corner case (b): a retrigger restarts nothing. -/
theorem test_wrPcmR4_retrigger :
    (nextState (exec (.wrPcmR4 0x80) (Tests.plain.withPcm (Tests.playing true 1)))).map (·.pcm) =
      some (Tests.playing true 1) := by decide

/-! ### SAMPLE (44_sound_sample.md) -/

/-- R192's table, duty 2, its first result; and 95_test_vectors.md P6, the mixer's maximum. -/
theorem test_sample_mix :
    (nextState (exec .sample (Tests.plain.withSq0 (Tests.square 2)))).map (fun t => (t.out, t.sq0.pos)) =
      some (.sample 3840 false, 1) ∧
    Tests.result .sample ((((Tests.plain.withSq0 (Tests.square 3)).withSq1 (Tests.square 3)).withNoise
      (Tests.noise true true true)).withPcm { Tests.playing false 0 with byte := 0xFF }) =
        some (.sample 15360 false) := by decide
/-- R195 (a), R198's example: noise routed right only, after its first update. -/
theorem test_noise_right_only :
    noiseStep (Tests.config 16384 []) (Tests.noise false true true) =
      ((0, 15), { Tests.noise false true true with lfsr := 0x003F }) ∧ mix 0 0 0 15 0 = 1792 := by decide
/-- 95_test_vectors.md 2.7, first row: the fifth update disables the channel and its sample is silent. -/
theorem test_noise_last_update :
    noiseStep (Tests.config 16384 []) { Tests.noise true true false with len := 1, lfsr := 0x0007 } =
      ((0, 0), { Tests.noise true true false with len := 0, lfsr := 0x0003, en := false }) := by decide
/-- P5: the low nibble, after which the next byte is fetched; and R196 (a): the SAMPLE after the last nibble stops the
playback. -/
theorem test_sample_pcm :
    (nextState (exec .sample ((Tests.plain.withRam [(0x0101, 0x3C)]).withPcm (Tests.playing true 1)))).map
      (fun t => (t.out, t.pcm)) =
        some (.sample 1280 false, { Tests.playing false 2 with cur := 0x0101, byte := 0x3C }) ∧
    (nextState (exec .sample (Tests.plain.withPcm (Tests.playing false 32)))).map (fun t => (t.out, t.pcm.trig)) =
      some (.sample 0 false, false) := by decide
/-- R195 (a): the twentieth value of the 7-bit mode, and the period of 127. -/
theorem test_lfsr_seven : lfsrUpdates false 20 0x007F = 0x0021 := by decide +kernel
theorem test_lfsr_seven_period : lfsrUpdates false 127 0x007F = 0x007F := by decide +kernel
/-- R195 (b): the fifteenth and the twentieth value of the 15-bit mode. -/
theorem test_lfsr_fifteen : lfsrUpdates true 15 0x7FFF = 0x4000 ∧ lfsrUpdates true 20 0x7FFF = 0x0200 := by decide +kernel
/-- R166's table. -/
theorem test_square_sizes :
    [0, 1, 2, 5, 16, 100, 255, 1521, 2046, 2047].map squareSize = [0, 0, 1, 2, 5, 35, 90, 536, 722, 722] := by decide
/-- R193's table. -/
theorem test_noise_periods :
    (List.range 16).map (fun i => noisePeriod (Tests.config 16384 []) (BitVec.ofNat 4 i)) =
      [1, 1, 1, 1, 1, 2, 5, 11, 22, 45, 90, 180, 361, 722, 1445, 1445] := by decide

/-! ### RESET and a step -/

/-- R230. -/
theorem test_reset :
    (nextState (exec .reset ((Tests.timed true true 7 512).withNoise (Tests.noise true true true)))).map
      (fun t => (t.timer, t.noise)) = some ({ en := false, slow := false, cnt := 0, acc := 0 }, Noise.reset) := by decide
/-- A word placed as the next operation is the one the next step applies (program P1, `WR 0x2026, 0x60`). -/
theorem test_step_runs_the_word :
    (nextState (step (State.reset.withFetchWord 32 0x1202660))).map (fun t => (t.bank, t.pending)) =
      some (3, []) := by decide
/-- A script line of R104: `WR16` writes the low byte first. -/
theorem test_script :
    (scheduleOf 0 [.keys 0x20, .write16 0x2018 0x1234]).map (fun r => (r.word, r.keys)) =
      [(0x1201834, 0x20), (0x1201912, 0x20)] := by decide

/-! ### States that meet the hypotheses of the statements -/

theorem witness_EncodeThenDecode :
    Config.default.legalMap = true ∧ (Instr.rdRegUnknown 0x008).wellFormed Config.default = true ∧
      (Instr.wrRegOther 0xFFF 0).wellFormed Config.default = true ∧
      (Instr.wrVdmaB 1 0xFF).wellFormed Config.default = true := by decide
theorem witness_DecodeThenEncode :
    decode Config.default 0x2ABCDEF = .ok .tick ∧ decode Config.default 0x02FFFAB = .ok (.rdRegUnknown 0xFFF) :=
  ⟨rfl, rfl⟩
theorem witness_UnusedFields :
    wordKind 0x7000000 = 0b111#3 ∧ wordKind 0x6FFFFFF ≠ 0b111#3 ∧ (0b010#3 ≠ 0b000#3 ∧ 0b010#3 ≠ 0b001#3) ∧
      (0b110#3 ≠ 0b000#3 ∧ 0b110#3 ≠ 0b001#3) := by decide
theorem witness_WrongDirection :
    Config.default.legalMap = true ∧
      (Config.default.claims .vdma 0x200D = true ∧ RegBlock.readable .vdma = false) ∧
      (Config.default.claims .ctrl 0x2020 = true ∧ RegBlock.writable .ctrl = false) := by decide
theorem witness_StepRuns :
    (Tests.plain.withPending [{ word := 0x2000000, keys := 1 }]).pending = [{ word := 0x2000000, keys := 1 }] ∧
      decode Tests.plain.cfg 0x2000000 = .ok .tick := ⟨rfl, rfl⟩
theorem witness_StepWithoutAnOperation :
    State.reset.pending = [] ∧
      ((Tests.plain.withPending [{ word := 0x7000000, keys := 0 }]).pending = [{ word := 0x7000000, keys := 0 }] ∧
        wordKind 0x7000000 = 0b111#3) := by decide
theorem witness_ReadsOfTheMemories :
    Memory.read (Tests.plain.withRam [(8191, 5)]).ram (0x1FFF : MemIndex).toNat = some 5 ∧
      Memory.read Tests.plain.ram (0 : MemIndex).toNat = none ∧
      Memory.read (Tests.plain.withVram [(8191, 5)]).vram (0x1FFF : MemIndex).toNat = some 5 ∧
      Memory.read Tests.plain.vram (0 : MemIndex).toNat = none := by decide
theorem witness_LcdBlock :
    Tests.plain.cfg.legalMap = true ∧ Tests.plain.cfg.claims .lcd 0x2000 = true ∧
      Tests.plain.cfg.claims .lcd 0x2007 = true := by decide
/-- For every statement whose only hypothesis is a legal register map. -/
theorem witness_legal_map : Tests.plain.cfg.legalMap = true := by decide
theorem witness_UnknownReads :
    (∀ r : RegBlock, r.readable = true → Tests.plain.cfg.claims r (0x2#4 ++ 0x008#12) = false) ∧
      (∀ r : RegBlock, r.readable = true → Tests.plain.cfg.claims r (0x2#4 ++ 0xFFF#12) = false) := by
  constructor <;> (intro r; cases r <;> decide)
theorem witness_UnknownWrites :
    (∀ r : RegBlock, r.writable = true → Tests.plain.cfg.claims r (0x2#4 ++ 0x00E#12) = false) ∧
      (∀ r : RegBlock, r.writable = true → Tests.plain.cfg.claims r (0x2#4 ++ 0x02B#12) = false) := by
  constructor <;> (intro r; cases r <;> decide)
/-- The last index of a 32768-byte ROM and the first beyond it. -/
theorem witness_SwitchableWindow :
    ((Tests.plain.withBank 1).bank.toNat * 16384 + (0x3FFF : BitVec 14).toNat < Tests.plain.cfg.rom.size) ∧
      (Tests.plain.cfg.rom.size ≤ (Tests.plain.withBank 2).bank.toNat * 16384 + (0 : BitVec 14).toNat) := by decide
theorem witness_FixedWindow : (Tests.start 16384 []).cfg.rom.size = 16384 := by decide
theorem witness_ReadsChangeNothing :
    Instr.rdTack.isRead = true ∧ ∃ t, exec .rdTack (Tests.timed true false 1 0) = .next t ∧ t.timer.en = false :=
  ⟨rfl, _, rfl, rfl⟩
theorem witness_BusRead :
    (∃ t, busRead (Tests.timed true false 1 0) 0x2024 = .done 0x01 false t ∧ t.timer.en = false) ∧
      busRead (Tests.plain.withBank 2) 0x8000 = .fault (.romIndexOutOfRange 32768) :=
  ⟨⟨_, rfl, rfl⟩, Tests.eq_fault (by decide)⟩
theorem witness_SystemControl :
    Tests.plain.cfg.legalMap = true ∧ Tests.plain.cfg.sysctlIrqMask = 0x03#8 ∧
      ∃ t, exec (.wrSysctl 0x02) Tests.plain = .next t ∧ t.timer.en = true := ⟨by decide, rfl, _, rfl, by decide⟩
theorem witness_TimerValueWrite :
    ((0 : Byte) = 0 ∧ (Tests.timed true false 1 0).timer.en = true) ∧
      ¬ ((1 : Byte) = 0 ∧ (Tests.timed true false 1 0).timer.en = true) ∧
      ¬ ((0 : Byte) = 0 ∧ (Tests.timed false false 1 0).timer.en = true) := by decide
theorem witness_ReservedWrites :
    Tests.plain.cfg.legalMap = true ∧ Tests.plain.cfg.claims .vdma 0x2008 = true ∧
      Tests.plain.cfg.claims .vdma 0x200D = true ∧ Tests.plain.cfg.claims .link 0x2022 = true := by decide
/-- One state for each of the cases of a TICK, at the boundaries of the counter and the accumulator. -/
theorem witness_Tick :
    (let t := (Tests.timed true false 0 0).timer; t.en = true ∧ t.cnt = 0) ∧
      (let t := (Tests.timed true false 1 0).timer; ¬ (t.en = true ∧ t.cnt = 0) ∧ t.slow = false) ∧
      (let t := (Tests.timed true true 1 15872).timer;
        ¬ (t.en = true ∧ t.cnt = 0) ∧ t.slow = true ∧ t.acc + 256 < 16384) ∧
      (let t := (Tests.timed false true 0 16128).timer;
        ¬ (t.en = true ∧ t.cnt = 0) ∧ t.slow = true ∧ 16384 ≤ t.acc + 256) ∧
      (let t := (Tests.timed true true 255 0).timer; ¬ (t.en = true ∧ t.cnt = 0) ∧ t.slow = true ∧ t.acc = 0) := by
  decide
theorem witness_TimerFires :
    (Tests.timed true false 9 0).timer.en = true ∧ (Tests.timed true false 9 0).timer.slow = false ∧
      (Tests.timed true true 9 0).timer.en = true ∧ (Tests.timed true true 9 0).timer.slow = true ∧
      (255 : Byte) ≠ 0 ∧ (0 : Byte) = 0 ∧ 0x02#8 &&& Tests.plain.cfg.sysctlIrqMask = 0x02#8 := by decide
theorem witness_DisabledTimer : (Tests.timed false false 0 0).timer.en = false := by decide
theorem witness_EnabledFlag :
    (∃ t, exec (.wrSysctl 0x02) (Tests.timed false false 0 0) = .next t ∧
        (Tests.timed false false 0 0).timer.en = false ∧ t.timer.en = true) ∧
      (∃ t, exec .tick (Tests.timed true false 0 0) = .next t ∧ (Tests.timed true false 0 0).timer.en = true ∧
        t.timer.en = false) := ⟨⟨_, rfl, by decide, by decide⟩, ⟨_, rfl, by decide, by decide⟩⟩
theorem witness_RequestLatch :
    (∃ t, exec (.wrTimer 0) (Tests.timed true false 5 0) = .next t ∧ (Tests.timed true false 5 0).irqPend = false ∧
        t.irqPend = true) ∧
      (∃ t, exec .takeIrq (Tests.plain.withIrqPend true) = .next t ∧ (Tests.plain.withIrqPend true).irqPend = true ∧
        t.irqPend = false) := ⟨⟨_, rfl, by decide, by decide⟩, ⟨_, rfl, by decide, by decide⟩⟩
theorem witness_BankAndNmiGate :
    ∃ t, exec (.wrSysctl 0xE1) Tests.plain = .next t ∧ (t.bank ≠ Tests.plain.bank ∨ t.nmiEn ≠ Tests.plain.nmiEn) :=
  ⟨_, rfl, by decide⟩
/-- A write without the trigger bit, a retrigger, and a fresh trigger whose fetch succeeds or faults. -/
theorem witness_PcmTrigger :
    (127 : Byte).toNat < 128 ∧
      (128 ≤ (128 : Byte).toNat ∧ (Tests.playing true 1).trig = true ∧ 0 < (Tests.playing true 1).played) ∧
      (¬ ((Tests.playing false 0).trig = true ∧ 0 < (Tests.playing false 0).played) ∧
        ∃ b d t, busRead (Tests.plain.withPcm (Tests.playing false 0)) (BitVec.ofNat 16 (0x01 * 256 + 0x00)) =
          .done b d t) ∧
      (∃ f, busRead ((Tests.plain.withBank 2).withPcm { Pcm.reset with ahi := 0x80 })
        (BitVec.ofNat 16 (0x80 * 256 + 0x00)) = .fault f) :=
  ⟨by decide, by decide, ⟨by decide, _, _, _, rfl⟩, .romIndexOutOfRange 32768, Tests.eq_fault (by decide)⟩
/-- A disabled channel, one of size 0, an advance inside the waveform, and wraps with 2 cycles left, 1 and none. -/
theorem witness_SquareStep :
    Square.reset.en = false ∧ { Square.reset with en := true }.size = 0 ∧
      (let q := Tests.square 2; q.en = true ∧ 0 < q.size ∧ q.pos + 1 < q.size) ∧
      (let q := { Tests.square 2 with pos := 4 }; q.en = true ∧ 0 < q.size ∧ q.size ≤ q.pos + 1 ∧ 1 < q.len) ∧
      (let q := { Tests.square 2 with pos := 4, len := 1 }; q.size ≤ q.pos + 1 ∧ q.len ≤ 1) ∧
      (let q := { Tests.square 2 with pos := 4, len := 0 }; q.size ≤ q.pos + 1 ∧ q.len ≤ 1) := by decide
theorem witness_SquarePlays :
    (let q := Tests.square 2; q.en = true ∧ 1 ≤ q.size ∧ q.pos = 0 ∧ 9 < max q.len 1 * q.size) ∧
      (let q := { Tests.square 0 with len := 0 }; q.en = true ∧ 1 ≤ q.size ∧ q.pos = 0) := by decide
/-- With frequency code 5 the period is 2: a sample before an update and one that updates. -/
theorem witness_NoiseStep :
    Noise.reset.en = false ∧
      (let c := Tests.config 16384 []
       let n := { Tests.noise true true true with freq := 5 }
       n.en = true ∧ n.pos + 1 < max 1 (((c.noiseDiv[n.freq.toNat]'n.freq.isLt) * 44100) / 4000000)) ∧
      (let c := Tests.config 16384 []
       let n := { Tests.noise true true true with freq := 5, pos := 1 }
       n.en = true ∧ max 1 (((c.noiseDiv[n.freq.toNat]'n.freq.isLt) * 44100) / 4000000) ≤ n.pos + 1) := by decide
theorem witness_LfsrUpdate :
    (0x007F#15).getLsbD 0 = (0x007F#15).getLsbD 1 ∧
      ((0x0001#15).getLsbD 0 ≠ (0x0001#15).getLsbD 1 ∧ lfsrShift true 0x0001 ≠ 0 ∧ lfsrShift false 0x0001 ≠ 0) ∧
      lfsrShift false 0 = 0 ∧ lfsrShift true 0 = 0 := by decide
theorem witness_LfsrNeverZero :
    (0x007F#15 ≠ 0 ∧ (false = false → (0x007F#15).toNat ≤ 0x7F)) ∧
      (0x7FFF#15 ≠ 0 ∧ (true = false → (0x7FFF#15).toNat ≤ 0x7F)) := by decide
/-- No playback; a playback at its end; a high nibble of the last byte. -/
theorem witness_SampleMixes :
    Tests.plain.pcm.trig = false ∧
      (let d := Tests.playing false 32
       d.trig = true ∧ (if d.len = 0 then 4096 else d.len.toNat * 16) * 2 ≤ d.played) ∧
      (let d := Tests.playing false 30
       d.trig = true ∧ d.played < (if d.len = 0 then 4096 else d.len.toNat * 16) * 2 ∧ d.sel = false) := by decide
/-- The last low nibble, its fetch succeeding or faulting. -/
theorem witness_SampleWithAFetch :
    (let d := Tests.playing true 31
     d.trig = true ∧ d.sel = true ∧ d.played < (if d.len = 0 then 4096 else d.len.toNat * 16) * 2) ∧
      (∃ b g t, busRead (Tests.plain.withPcm (Tests.playing true 31)) (BitVec.ofNat 16 (0x0100 + 1)) = .done b g t) ∧
      (∃ f, busRead ((Tests.plain.withBank 2).withPcm { Tests.playing true 31 with cur := 0x7FFF })
        (BitVec.ofNat 16 (0x7FFF + 1)) = .fault f) :=
  ⟨by decide, ⟨_, _, _, rfl⟩, .romIndexOutOfRange 32768, Tests.eq_fault (by decide)⟩
theorem witness_PcmPlayback :
    let s := (Tests.plain.withRam [(0x0100, 0xA5)]).withPcm (Tests.playing false 0)
    16 = (if s.pcm.len = 0 then 4096 else s.pcm.len.toNat * 16) ∧ s.pcm.trig = true ∧ s.pcm.played = 0 ∧
      s.pcm.sel = false ∧ s.pcm.cur.toNat + 16 ≤ 0x1FFF ∧
      s.pcm.byte = ramByte s (BitVec.ofNat 13 s.pcm.cur.toNat) := by decide
theorem witness_SampleRange :
    ∃ t, exec .sample (Tests.plain.withSq0 (Tests.square 3)) = .next t ∧ t.out = .sample 3840 false :=
  ⟨_, rfl, by decide⟩
theorem witness_UnreadPcmFields :
    (Tests.plain.withPcm { Pcm.reset with bank := 7, freq := 3 }).eraseUnread =
      (Tests.plain.withPcm { Pcm.reset with left := true }).eraseUnread := rfl
/-- A playback whose next fetch, and a trigger whose first fetch, are from RAM. -/
theorem witness_Buttons :
    (∃ t, exec .sample (Tests.plain.withPcm (Tests.playing true 1)) = .next t) ∧
      ¬ ReadIs Tests.plain.cfg ((Tests.playing true 1).cur + 1) .rdCtrl ∧
      (∃ t, exec (.wrPcmR4 0x80) (Tests.plain.withPcm { Pcm.reset with ahi := 0x01 }) = .next t) ∧
      ¬ ReadIs Tests.plain.cfg (0x01#8 ++ 0x00#8) .rdCtrl := by
  refine ⟨⟨_, rfl⟩, ?_, ⟨_, rfl⟩, ?_⟩ <;> rw [readIs_iff] <;> decide
/-- Each of the three operations that can fault, faulting. -/
theorem witness_Faulting :
    (∃ t f, exec (.rdRomBank 0) (Tests.plain.withBank 2) = .next t ∧ t.out = .faulted f) ∧
      (∃ t f, exec (.wrPcmR4 0x80) ((Tests.plain.withBank 2).withPcm { Pcm.reset with ahi := 0x80 }) = .next t ∧
        t.out = .faulted f) ∧
      (∃ t f, exec .sample ((Tests.plain.withBank 2).withPcm { Tests.playing true 31 with cur := 0x7FFF }) = .next t ∧
        t.out = .faulted f) :=
  ⟨⟨_, _, rfl, rfl⟩, ⟨_, _, rfl, rfl⟩, ⟨_, _, rfl, rfl⟩⟩
theorem witness_NoStop :
    (∀ a, Instr.tick ≠ .rdRomBank a) ∧ (∀ v, Instr.tick ≠ .wrPcmR4 v) ∧ Instr.tick ≠ .sample := by
  refine ⟨fun a h => ?_, fun v h => ?_, fun h => ?_⟩ <;> cases h
/-- An unmapped access, and a SAMPLE and a trigger that fetch from one. -/
theorem witness_Diagnostic :
    ((Tests.playing true 31).trig = true ∧ (Tests.playing true 31).sel = true ∧ (Tests.playing true 31).played = 31) ∧
    ((Instr.rdUnmapped3 0).isUnmapped = true ∧ ∃ t, exec (.rdUnmapped3 0) Tests.plain = .next t) ∧
      (∃ t, exec .sample (Tests.plain.withPcm { Tests.playing true 31 with cur := 0x2FFF }) = .next t ∧
        t.out.diag = true) ∧
      (∃ t, exec (.wrPcmR4 0x80) (Tests.plain.withPcm { Pcm.reset with ahi := 0x30 }) = .next t ∧
        t.out.diag = true) := ⟨⟨rfl, rfl, rfl⟩, ⟨rfl, _, rfl⟩, ⟨_, rfl, rfl⟩, ⟨_, rfl, rfl⟩⟩
theorem witness_Configuration : ∃ t, exec .reset (Tests.timed true true 9 256) = .next t := ⟨_, rfl⟩
theorem witness_MemoryChanges :
    ∃ t, exec (.wrRam 3 1) (Tests.plain.withRam [(3, 0)]) = .next t ∧ (Instr.wrRam 3 1) ≠ .reset ∧
      ramByte t 3 ≠ ramByte (Tests.plain.withRam [(3, 0)]) 3 := by
  refine ⟨_, rfl, fun h => ?_, by decide⟩
  cases h
theorem witness_VramChanges :
    ∃ t, exec (.wrVram 3 1) (Tests.plain.withVram [(3, 0)]) = .next t ∧ (Instr.wrVram 3 1) ≠ .reset ∧
      vramByte t 3 ≠ vramByte (Tests.plain.withVram [(3, 0)]) 3 := by
  refine ⟨_, rfl, fun h => ?_, by decide⟩
  cases h
theorem witness_SoundChannels :
    (∃ t, exec (.wrSq0R3 4) Tests.plain = .next t ∧ t.sq0 ≠ Tests.plain.sq0) ∧
      (∃ t, exec (.wrSq1R3 4) Tests.plain = .next t ∧ t.sq1 ≠ Tests.plain.sq1) ∧
      (∃ t, exec (.wrNoiseR1 4) Tests.plain = .next t ∧ t.noise ≠ Tests.plain.noise) ∧
      (∃ t, exec (.wrPcmR0 4) Tests.plain = .next t ∧ t.pcm ≠ Tests.plain.pcm) :=
  ⟨⟨_, rfl, by decide⟩, ⟨_, rfl, by decide⟩, ⟨_, rfl, by decide⟩, ⟨_, rfl, by decide⟩⟩
/-- A good state with a SAMPLE pending, a playback and a sounding channel in it, and the step it takes. -/
theorem witness_Invariants :
    let s := (((Tests.plain.withSq0 (Tests.square 2)).withRam [(0, 1), (8191, 2)]).withPcm
      (Tests.playing false 8192)).withPending [{ word := 0x4000000, keys := 0 }]
    s.Inv ∧ ∃ t, step s = .next t := by
  refine ⟨⟨by decide, by decide, ⟨by decide, by decide⟩, ⟨by decide, by decide, by decide, by decide⟩,
    ⟨by decide, by decide, by decide, by decide⟩, ⟨by decide, by decide⟩, ?_⟩, _, rfl⟩
  exact Nat.le_refl _
end

section
/-! PROOFS. No operation changes the configuration or the input (10_state.md R24, R48). Six rows branch: the READs of the
two ROM windows, the timer-value write, the trigger write, TICK and SAMPLE. For them one lemma each says that every
branch keeps the two fields; every other row updates named fields, and neither field is among them. -/

namespace Sys2Proof.Machine

/-- `t` holds the configuration and the input of `s`: the two elements of a state that no operation writes. -/
def KeepsConfigurationAndInput (s t : State) : Prop := t.cfg = s.cfg ∧ t.keys = s.keys

/-- A READ of the switchable window, faulting or not (40_bus_read.md R120). -/
theorem finishRead_readRomBank_keepsConfigurationAndInput (s : State) (a : BitVec 14) :
    KeepsConfigurationAndInput s (finishRead s (readRomBank s a)) := by
  obtain ⟨r, hr⟩ := readRomBank_effect s a
  rw [hr]
  exact ⟨State.withOut_cfg s r, State.withOut_keys s r⟩

/-- A READ of the fixed window (R121). -/
theorem finishRead_readRomFixed_keepsConfigurationAndInput (s : State) (a : BitVec 14) :
    KeepsConfigurationAndInput s (finishRead s (readRomFixed s a)) := by
  obtain ⟨r, hr⟩ := readRomFixed_effect s a
  rw [hr]
  exact ⟨State.withOut_cfg s r, State.withOut_keys s r⟩

/-- The timer-value write, firing or not (41_bus_write.md R135). -/
theorem writeTimer_keepsConfigurationAndInput (s : State) (v : Byte) :
    KeepsConfigurationAndInput s (writeTimer s v) := by
  by_cases hfires : v = 0 ∧ s.timer.en = true
  · obtain ⟨hzero, hen⟩ := hfires
    rw [writeTimer_fires hzero hen]
    simp [KeepsConfigurationAndInput]
  · rw [writeTimer_quiet hfires]
    simp [KeepsConfigurationAndInput]

/-- The trigger write: it may fetch, its fetch may clear `T.en`, and it may fault (43_sound_registers.md R178). -/
theorem finishFetchingWrite_pcmWriteR4_keepsConfigurationAndInput (s : State) (v : Byte) :
    KeepsConfigurationAndInput s (finishFetchingWrite s (pcmWriteR4 s v)) := by
  obtain ⟨r, p, hplain | ⟨hdisarmed, _⟩⟩ := triggerWrite_effect s v
  · rw [hplain]
    simp [KeepsConfigurationAndInput]
  · rw [hdisarmed]
    simp [KeepsConfigurationAndInput]

/-- TICK, firing or counting (42_timer_irq.md R150). -/
theorem execTick_keepsConfigurationAndInput {s t : State} (h : execTick s = .next t) :
    KeepsConfigurationAndInput s t := by
  obtain ⟨_, _, hfires⟩ | ⟨_, hcounts⟩ := execTick_effect s
  · rw [hfires] at h
    cases h
    simp [KeepsConfigurationAndInput]
  · rw [hcounts] at h
    cases h
    simp [KeepsConfigurationAndInput]

/-- SAMPLE: cancelled by a fault, without a disarming fetch, or with one (44_sound_sample.md R196, R198). -/
theorem sampleState_keepsConfigurationAndInput (s : State) : KeepsConfigurationAndInput s (sampleState s) := by
  obtain ⟨r, hfault | ⟨p, hplain | ⟨hdisarmed, _⟩⟩⟩ := sampleState_effect s
  · rw [hfault]
    simp [KeepsConfigurationAndInput]
  · rw [hplain]
    simp [KeepsConfigurationAndInput]
  · rw [hdisarmed]
    simp [KeepsConfigurationAndInput]

/-- The next state of every row, RESET included, holds the configuration and the input of the state before. -/
theorem exec_keepsConfigurationAndInput (i : Instr) {s t : State} (h : exec i s = .next t) :
    KeepsConfigurationAndInput s t := by
  cases i
  case rdRomBank a => cases h; exact finishRead_readRomBank_keepsConfigurationAndInput s a
  case rdRomFixed a => cases h; exact finishRead_readRomFixed_keepsConfigurationAndInput s a
  case wrTimer v => cases h; exact writeTimer_keepsConfigurationAndInput s v
  case wrPcmR4 v => cases h; exact finishFetchingWrite_pcmWriteR4_keepsConfigurationAndInput s v
  case tick => exact execTick_keepsConfigurationAndInput h
  case sample => cases h; exact sampleState_keepsConfigurationAndInput s
  -- The other rows do not branch: their next state is a record update that names neither field.
  all_goals cases h; exact ⟨rfl, rfl⟩

/-- Settles O56: every row keeps the configuration and the input, the six that branch by their lemmas above. -/
theorem noInstructionChangesTheConfiguration : Obligations.NoInstructionChangesTheConfiguration :=
  fun i _ _ h => exec_keepsConfigurationAndInput i h

end Sys2Proof.Machine
end

section
/-! PROOFS. The region an address lies in (20_memory.md R69), and a store to RAM or VRAM read back (R61, R63). The high
bits of an address fix the range its number lies in, and the range fixes the row; each region is said once, for READ and
WRITE together. What the two stores and the two loads answer is one equation each. -/

namespace Sys2Proof

/-! ### The range of an address with fixed high bits -/

theorem le_toNat_append {n m lo : Nat} (x : BitVec n) (a : BitVec m) (h : lo ≤ 2 ^ m * x.toNat) :
    lo ≤ (x ++ a).toNat := by
  rw [toNat_append_eq]
  exact Nat.le_add_right_of_le h

theorem toNat_append_le {n m hi : Nat} (x : BitVec n) (a : BitVec m) (h : 2 ^ m * x.toNat + 2 ^ m ≤ hi + 1) :
    (x ++ a).toNat ≤ hi := by
  have ha := a.isLt
  rw [toNat_append_eq]
  omega

/-! ### The rows of each region (R69) -/

/-- Bits 15:13 = 000. -/
theorem ramAddress_rows (c : Config) (a : BitVec 13) :
    ReadIs c (0b000#3 ++ a) (.rdRam a) ∧ ∀ v, WriteIs c (0b000#3 ++ a) v (.wrRam a v) := by
  have hi : (0b000#3 ++ a).toNat ≤ 0x1FFF := toNat_append_le _ a (by decide)
  simp only [readIs_iff, writeIs_iff]
  rw [decodeRead_ram hi, setWidth_append_low]
  exact ⟨rfl, fun v => by rw [decodeWrite_ram hi, setWidth_append_low]⟩

/-- Bits 15:12 = 0010: the register map decides. -/
theorem registerAddress_rows (c : Config) (a : BitVec 12) :
    ReadIs c (0b0010#4 ++ a) (decodeReadRegister c (0b0010#4 ++ a)) ∧
      ∀ v, WriteIs c (0b0010#4 ++ a) v (decodeWriteRegister c (0b0010#4 ++ a) v) := by
  have lo : 0x2000 ≤ (0b0010#4 ++ a).toNat := le_toNat_append _ a (by decide)
  have hi : (0b0010#4 ++ a).toNat ≤ 0x2FFF := toNat_append_le _ a (by decide)
  simp only [readIs_iff, writeIs_iff]
  exact ⟨decodeRead_register lo hi, fun v => decodeWrite_register lo hi⟩

/-- Bits 15:12 = 0011. -/
theorem unmapped3Address_rows (c : Config) (a : BitVec 12) :
    ReadIs c (0b0011#4 ++ a) (.rdUnmapped3 a) ∧ ∀ v, WriteIs c (0b0011#4 ++ a) v (.wrUnmapped3 a v) := by
  have lo : 0x3000 ≤ (0b0011#4 ++ a).toNat := le_toNat_append _ a (by decide)
  have hi : (0b0011#4 ++ a).toNat ≤ 0x3FFF := toNat_append_le _ a (by decide)
  simp only [readIs_iff, writeIs_iff]
  rw [decodeRead_unmapped3 lo hi, setWidth_append_low]
  exact ⟨rfl, fun v => by rw [decodeWrite_unmapped3 lo hi, setWidth_append_low]⟩

/-- Bits 15:13 = 010. -/
theorem vramAddress_rows (c : Config) (a : BitVec 13) :
    ReadIs c (0b010#3 ++ a) (.rdVram a) ∧ ∀ v, WriteIs c (0b010#3 ++ a) v (.wrVram a v) := by
  have lo : 0x4000 ≤ (0b010#3 ++ a).toNat := le_toNat_append _ a (by decide)
  have hi : (0b010#3 ++ a).toNat ≤ 0x5FFF := toNat_append_le _ a (by decide)
  simp only [readIs_iff, writeIs_iff]
  rw [decodeRead_vram lo hi, setWidth_append_low]
  exact ⟨rfl, fun v => by rw [decodeWrite_vram lo hi, setWidth_append_low]⟩

/-- Bits 15:13 = 011. -/
theorem unmapped6Address_rows (c : Config) (a : BitVec 13) :
    ReadIs c (0b011#3 ++ a) (.rdUnmapped6 a) ∧ ∀ v, WriteIs c (0b011#3 ++ a) v (.wrUnmapped6 a v) := by
  have lo : 0x6000 ≤ (0b011#3 ++ a).toNat := le_toNat_append _ a (by decide)
  have hi : (0b011#3 ++ a).toNat ≤ 0x7FFF := toNat_append_le _ a (by decide)
  simp only [readIs_iff, writeIs_iff]
  rw [decodeRead_unmapped6 lo hi, setWidth_append_low]
  exact ⟨rfl, fun v => by rw [decodeWrite_unmapped6 lo hi, setWidth_append_low]⟩

/-- Bits 15:14 = 10. -/
theorem romBankAddress_rows (c : Config) (a : BitVec 14) :
    ReadIs c (0b10#2 ++ a) (.rdRomBank a) ∧ ∀ v, WriteIs c (0b10#2 ++ a) v (.wrRomBank a v) := by
  have lo : 0x8000 ≤ (0b10#2 ++ a).toNat := le_toNat_append _ a (by decide)
  have hi : (0b10#2 ++ a).toNat ≤ 0xBFFF := toNat_append_le _ a (by decide)
  simp only [readIs_iff, writeIs_iff]
  rw [decodeRead_romBank lo hi, setWidth_append_low]
  exact ⟨rfl, fun v => by rw [decodeWrite_romBank lo hi, setWidth_append_low]⟩

/-- Bits 15:14 = 11. -/
theorem romFixedAddress_rows (c : Config) (a : BitVec 14) :
    ReadIs c (0b11#2 ++ a) (.rdRomFixed a) ∧ ∀ v, WriteIs c (0b11#2 ++ a) v (.wrRomFixed a v) := by
  have lo : 0xC000 ≤ (0b11#2 ++ a).toNat := le_toNat_append _ a (by decide)
  simp only [readIs_iff, writeIs_iff]
  rw [decodeRead_romFixed lo, setWidth_append_low]
  exact ⟨rfl, fun v => by rw [decodeWrite_romFixed lo, setWidth_append_low]⟩

/-- Settles O5: the rows of the seven regions, each by its lemma above. -/
theorem addressBitsSelectTheRegion : Obligations.AddressBitsSelectTheRegion := by
  intro c v
  refine ⟨fun a => ?ram, fun a => ?register, fun a => ?unmapped3, fun a => ?vram, fun a => ?unmapped6,
    fun a => ?romBank, fun a => ?romFixed⟩
  case ram => exact (ramAddress_rows c a).imp_right (· v)
  case register => exact (registerAddress_rows c a).imp_right (· v)
  case unmapped3 => exact (unmapped3Address_rows c a).imp_right (· v)
  case vram => exact (vramAddress_rows c a).imp_right (· v)
  case unmapped6 => exact (unmapped6Address_rows c a).imp_right (· v)
  case romBank => exact (romBankAddress_rows c a).imp_right (· v)
  case romFixed => exact (romFixedAddress_rows c a).imp_right (· v)

end Sys2Proof

namespace Sys2Proof.Machine

/-! ### What the stores and the loads of the two memories answer (R111, R119, R131, R137) -/

theorem exec_rdRam (s : State) (a : BitVec 13) :
    exec (.rdRam a) s = .next (s.withOut (.byte (ramByte s a) false)) := rfl

theorem exec_rdVram (s : State) (a : BitVec 13) :
    exec (.rdVram a) s = .next (s.withOut (.byte (vramByte s a) false)) := rfl

theorem exec_wrRam (s : State) (a : BitVec 13) (v : Byte) :
    exec (.wrRam a v) s = .next ((storeRam s a v).withOut (.ack false)) := rfl

theorem exec_wrVram (s : State) (a : BitVec 13) (v : Byte) :
    exec (.wrVram a v) s = .next ((storeVram s a v).withOut (.ack false)) := rfl

/-! ### A result changes no byte, and a store changes its memory alone -/

@[simp] theorem ramByte_withOut (s : State) (r : Response) (i : MemIndex) : ramByte (s.withOut r) i = ramByte s i := rfl

@[simp] theorem vramByte_withOut (s : State) (r : Response) (i : MemIndex) :
    vramByte (s.withOut r) i = vramByte s i := rfl

/-- A store to RAM leaves no trace outside RAM. -/
@[simp] theorem storeRam_withRam (s : State) (i : MemIndex) (v : Byte) (x : Memory) :
    (storeRam s i v).withRam x = s.withRam x := rfl

/-- A store to VRAM leaves no trace outside VRAM. -/
@[simp] theorem storeVram_withVram (s : State) (i : MemIndex) (v : Byte) (x : Memory) :
    (storeVram s i v).withVram x = s.withVram x := rfl

/-- What RAM holds after WR_RAM has returned. -/
theorem ramByte_wrRam (s : State) (a b : BitVec 13) (v : Byte) (r : Response) :
    ramByte ((storeRam s a v).withOut r) b = if b = a then v else ramByte s b := by
  rw [ramByte_withOut, ramByte_storeRam]

/-- What VRAM holds after WR_VRAM has returned. -/
theorem vramByte_wrVram (s : State) (a b : BitVec 13) (v : Byte) (r : Response) :
    vramByte ((storeVram s a v).withOut r) b = if b = a then v else vramByte s b := by
  rw [vramByte_withOut, vramByte_storeVram]

/-- Settles O13: the state after WR_RAM is the store with the acknowledgement, whose bytes and frame are known above. -/
theorem ramWriteThenReadReturnsTheWrittenValue : Obligations.RamWriteThenReadReturnsTheWrittenValue := by
  intro s a v
  refine ⟨(storeRam s a v).withOut (.ack false), (ramAddress_rows s.cfg a).2 v, exec_wrRam s a v,
    State.withOut_out _ _, fun b => ramByte_wrRam s a b v _, ?frame,
    fun b => ⟨(ramAddress_rows s.cfg b).1, ?readBack⟩⟩
  case frame =>
    rw [State.withOut_withRam, storeRam_withRam, State.withRam_self, State.withOut_withOut, State.withOut_self]
  case readBack => rw [exec_rdRam, ramByte_wrRam]

/-- Settles O14, as O13 with the lemmas of VRAM. -/
theorem vramWriteThenReadReturnsTheWrittenValue : Obligations.VramWriteThenReadReturnsTheWrittenValue := by
  intro s a v
  refine ⟨(storeVram s a v).withOut (.ack false), (vramAddress_rows s.cfg a).2 v, exec_wrVram s a v,
    State.withOut_out _ _, fun b => vramByte_wrVram s a b v _, ?frame,
    fun b => ⟨(vramAddress_rows s.cfg b).1, ?readBack⟩⟩
  case frame =>
    rw [State.withOut_withVram, storeVram_withVram, State.withVram_self, State.withOut_withOut, State.withOut_self]
  case readBack => rw [exec_rdVram, vramByte_wrVram]

end Sys2Proof.Machine
end

section
/-! PROOFS. READ, class of address by class of address (40_bus_read.md R110 to R122), with the LCD write that shares the
block's index (41_bus_write.md R132). Each statement has two halves: the row the address decodes to, from the lemmas of
the regions and of the register map, and what that row answers, one equation each. -/

namespace Sys2Proof

/-! ### The rows of the registers (R94, R95) -/

/-- The first address of a register block is the block's own. -/
theorem Config.claims_base (c : Config) (b : RegBlock) : c.claims b (c.base b) = true := by
  rw [Config.claims_iff]
  exact ⟨Nat.le_refl _, Nat.lt_add_of_pos_right (by cases b <;> decide)⟩

section
variable {c : Config} {b : RegBlock} {a : Address} {i : Instr} (hmap : c.legalMap = true) (hb : c.claims b a = true)
include hmap hb

/-- A claimed address is read by the row the register map gives it. -/
theorem readIs_of_claims (hrow : decodeReadRegister c a = i) : ReadIs c a i := by
  obtain ⟨lo, hi⟩ := Config.claims_window hmap hb
  rw [readIs_iff, decodeRead_register lo hi, hrow]

/-- A claimed address is written by the row the register map gives it. -/
theorem writeIs_of_claims {v : Byte} (hrow : decodeWriteRegister c a v = i) : WriteIs c a v i := by
  obtain ⟨lo, hi⟩ := Config.claims_window hmap hb
  rw [writeIs_iff, decodeWrite_register lo hi, hrow]

end

/-- A register of one address is read at its base; `hrow` is the register's row wherever its block claims. -/
theorem readIs_base {c : Config} {i : Instr} (hmap : c.legalMap = true) (b : RegBlock)
    (hrow : c.claims b (c.base b) = true → decodeReadRegister c (c.base b) = i) : ReadIs c (c.base b) i :=
  readIs_of_claims hmap (c.claims_base b) (hrow (c.claims_base b))

/-- An address of the register window that no readable block claims is read by the catch-all row (R118). -/
theorem readIs_rdRegUnknown {c : Config} {a : BitVec 12}
    (hn : ∀ b : RegBlock, b.readable = true → c.claims b (0x2#4 ++ a) = false) :
    ReadIs c (0x2#4 ++ a) (.rdRegUnknown a) := by
  have hrow := (registerAddress_rows c a).1
  rwa [decodeReadRegister_unknown hn, setWidth_append_low] at hrow

end Sys2Proof

namespace Sys2Proof.Machine

/-! ### The LCD register file by number (20_memory.md R77) -/

theorem lcdRead_toNat (l : Lcd) (i : BitVec 2) :
    lcdRead l i = if i.toNat = 0 then l.hsize else if i.toNat = 1 then l.vsize
      else if i.toNat = 2 then l.xscroll else l.yscroll := by
  simp [lcdRead, ← BitVec.toNat_inj]

theorem lcdWrite_toNat (l : Lcd) (i : BitVec 2) (v : Byte) :
    lcdWrite l i v = if i.toNat = 0 then { l with hsize := v } else if i.toNat = 1 then { l with vsize := v }
      else if i.toNat = 2 then { l with xscroll := v } else { l with yscroll := v } := by
  simp [lcdWrite, ← BitVec.toNat_inj]

/-- Since the block starts at a multiple of 4, the low two bits of the offset are those of the address (R112). -/
theorem lcdIndex_offset {c : Config} {a : Address} (hmap : c.legalMap = true) (ha : c.claims .lcd a = true) :
    (lcdIndex (BitVec.ofNat 3 (c.offset .lcd a))).toNat = a.toNat % 4 := by
  have halign : (c.base .lcd).toNat % 4 = 0 := Config.legalMap_lcd hmap
  obtain ⟨hbase, -⟩ := (Config.claims_iff c .lcd a).1 ha
  simp only [lcdIndex, Config.offset, BitVec.toNat_setWidth, BitVec.toNat_ofNat]
  omega

/-! ### The byte a memory holds (10_state.md R22, R23) -/

theorem ramByte_of_read {s : State} {i : MemIndex} {b : Byte} (h : Memory.read s.ram i.toNat = some b) :
    ramByte s i = b := by
  rw [ramByte, h, Option.getD_some]

theorem ramByte_of_unlisted {s : State} {i : MemIndex} (h : Memory.read s.ram i.toNat = none) :
    ramByte s i = Config.initRam i := by
  rw [ramByte, h, Option.getD_none]

theorem vramByte_of_read {s : State} {i : MemIndex} {b : Byte} (h : Memory.read s.vram i.toNat = some b) :
    vramByte s i = b := by
  rw [vramByte, h, Option.getD_some]

theorem vramByte_of_unlisted {s : State} {i : MemIndex} (h : Memory.read s.vram i.toNat = none) :
    vramByte s i = Config.initVram i := by
  rw [vramByte, h, Option.getD_none]

/-! ### The ROM (20_memory.md R65, R66, R68) -/

theorem romAt_inside {s : State} {i : Nat} (h : i < s.cfg.rom.size) :
    romAt s i = .done (romByte s.cfg.rom i) false s := if_pos h

theorem romAt_beyond {s : State} {i : Nat} (h : s.cfg.rom.size ≤ i) :
    romAt s i = .fault (.romIndexOutOfRange i) := if_neg (Nat.not_lt.2 h)

/-- In a ROM of one window the fixed window is bank 0. -/
theorem romFixedIndex_oneWindow (a : BitVec 14) : romFixedIndex 16384 a = romBankIndex 0 a := by
  simp [romFixedIndex, romBankIndex]

/-! ### What each row answers (R111 to R122, R132) -/

section
variable (s : State)

theorem exec_rdLcd (a : BitVec 3) :
    exec (.rdLcd a) s = .next (s.withOut (.byte (lcdRead s.lcd (lcdIndex a)) false)) := rfl

theorem exec_wrLcd (a : BitVec 3) (v : Byte) :
    exec (.wrLcd a v) s = .next ((s.withLcd (lcdWrite s.lcd (lcdIndex a) v)).withOut (.ack false)) := rfl

theorem exec_rdCtrl : exec .rdCtrl s = .next (s.withOut (.byte (~~~s.keys) false)) := rfl

theorem exec_rdTimer : exec .rdTimer s = .next (s.withOut (.byte s.timer.cnt false)) := rfl

theorem exec_rdTack : exec .rdTack s = .next ((disarmTimer s).withOut (.byte 0x01 false)) := rfl

theorem exec_rdAack : exec .rdAack s = .next (s.withOut (.byte 0x00 false)) := rfl

theorem exec_rdIrqstat : exec .rdIrqstat s = .next ((disarmTimer s).withOut (.byte 0x03 false)) := rfl

theorem exec_rdRegUnknown (a : BitVec 12) :
    exec (.rdRegUnknown a) s = .next (s.withOut (.byte 0xFF true)) := rfl

theorem exec_rdUnmapped3 (a : BitVec 12) :
    exec (.rdUnmapped3 a) s = .next (s.withOut (.byte 0xFF true)) := rfl

theorem exec_rdUnmapped6 (a : BitVec 13) :
    exec (.rdUnmapped6 a) s = .next (s.withOut (.byte 0xFF true)) := rfl

theorem exec_rdRomBank (a : BitVec 14) :
    exec (.rdRomBank a) s = .next (finishRead s (romAt s (romBankIndex s.bank a))) := rfl

theorem exec_rdRomFixed (a : BitVec 14) :
    exec (.rdRomFixed a) s = .next (finishRead s (romAt s (romFixedIndex s.cfg.rom.size a))) := rfl

@[simp] theorem finishRead_done (b : Byte) (d : Bool) (t : State) :
    finishRead s (.done b d t) = t.withOut (.byte b d) := rfl

@[simp] theorem finishRead_fault (f : Fault) : finishRead s (.fault f) = s.withOut (.faulted f) := rfl

end

/-- The fixed window answers a byte, never the fault (R121). -/
theorem exec_rdRomFixed_byte (s : State) (a : BitVec 14) :
    exec (.rdRomFixed a) s =
      .next (s.withOut (.byte (romByte s.cfg.rom (romFixedIndex s.cfg.rom.size a)) false)) := by
  rw [exec_rdRomFixed, romAt_inside (romFixedIndex_lt _ a), finishRead_done]

/-! ### The statements -/

/-- Settles O15: the row from the register map, the register from `lcdIndex_offset`. -/
theorem lcdBlockSelectsTheRegisterModuloFour : Obligations.LcdBlockSelectsTheRegisterModuloFour := by
  intro s a v hmap ha
  have hindex := lcdIndex_offset hmap ha
  refine ⟨readIs_of_claims hmap ha (decodeReadRegister_lcd ha),
    writeIs_of_claims hmap ha (decodeWriteRegister_lcd ha v), ?read, ?write⟩
  case read => rw [← hindex, ← lcdRead_toNat]; exact exec_rdLcd s _
  case write => rw [← hindex, ← lcdWrite_toNat]; exact exec_wrLcd s _ v

/-- Settles O12: the byte held is the listed one or the open initial one, whichever `Memory.read` says. -/
theorem readsOfTheMemoriesReturnTheByteHeld : Obligations.ReadsOfTheMemoriesReturnTheByteHeld := fun s a =>
  ⟨(ramAddress_rows s.cfg a).1, (vramAddress_rows s.cfg a).1, exec_rdRam s a, exec_rdVram s a,
    fun _ => ramByte_of_read, ramByte_of_unlisted, fun _ => vramByte_of_read, vramByte_of_unlisted⟩

/-- Settles O16: the byte read is the complement of the input. -/
theorem controllerReadIsActiveLow : Obligations.ControllerReadIsActiveLow := by
  intro s
  refine ⟨fun hmap => readIs_base hmap .ctrl (decodeReadRegister_ctrl hmap), ~~~s.keys, exec_rdCtrl s,
    fun i hi => ?activeLow⟩
  case activeLow => rw [BitVec.getLsbD_not, decide_eq_true hi, Bool.true_and]

/-- Settles O17: the four rows by the register map, the four answers by their equations. -/
theorem timerAndStatusReads : Obligations.TimerAndStatusReads := by
  intro s
  refine ⟨fun hmap => ⟨?timer, ?tack, ?aack, ?irqstat⟩, exec_rdTimer s, exec_rdTack s, exec_rdAack s, exec_rdIrqstat s⟩
  case timer => exact readIs_base hmap .timer (decodeReadRegister_timer hmap)
  case tack => exact readIs_base hmap .tack (decodeReadRegister_tack hmap)
  case aack => exact readIs_base hmap .aack (decodeReadRegister_aack hmap)
  case irqstat => exact readIs_base hmap .irqstat (decodeReadRegister_irqstat hmap)

/-- Settles O18: the three rows by address, and the one answer they share. -/
theorem unknownAndUnmappedReadsGiveFFWithDiagnostic : Obligations.UnknownAndUnmappedReadsGiveFFWithDiagnostic :=
  fun s a b => ⟨readIs_rdRegUnknown, (unmapped3Address_rows s.cfg a).1, (unmapped6Address_rows s.cfg b).1,
    exec_rdRegUnknown s a, exec_rdUnmapped3 s a, exec_rdUnmapped6 s b⟩

/-- Settles O19: the index of the switchable window is inside the ROM or beyond it. -/
theorem switchableWindowReadsThroughTheBank : Obligations.SwitchableWindowReadsThroughTheBank := by
  intro s a
  refine ⟨(romBankAddress_rows s.cfg a).1, fun hinside => ?inside, fun hbeyond => ?beyond⟩
  case inside => rw [exec_rdRomBank, romBankIndex, romAt_inside hinside, finishRead_done]
  case beyond => rw [exec_rdRomBank, romBankIndex, romAt_beyond hbeyond, finishRead_fault]

/-- Settles O20: the index of the fixed window is always inside the ROM and does not look at `BANK`; in a ROM of one
window it is the index of bank 0. -/
theorem fixedWindowReadsTheLastBank : Obligations.FixedWindowReadsTheLastBank := by
  intro s a
  refine ⟨(romFixedAddress_rows s.cfg a).1, romFixedIndex_lt s.cfg.rom a, exec_rdRomFixed_byte s a,
    fun b => exec_rdRomFixed_byte (s.withBank b) a, fun hsize => ?bankZero⟩
  case bankZero =>
    rw [exec_rdRomBank, exec_rdRomFixed, State.withBank_bank, State.withBank_cfg, hsize, romFixedIndex_oneWindow]

end Sys2Proof.Machine
end

section
/-! PROOFS. WRITE, the rows that are neither memory, LCD nor sound registers (41_bus_write.md R133 to R135, R138 to
R140). As for READ, the row an address decodes to comes from the register map and the regions, and what each row answers
is one equation; the fields of the system-control value are read as numbers (30_encoding.md R96). -/

namespace Sys2Proof

/-! ### The rows of the written registers (R94, R95) -/

section
variable {c : Config} {v : Byte} (hmap : c.legalMap = true) (b : RegBlock)
include hmap

/-- A register of one address is written at its base; `hrow` is the register's row wherever its block claims. -/
theorem writeIs_base {i : Instr} (hrow : c.claims b (c.base b) = true → decodeWriteRegister c (c.base b) v = i) :
    WriteIs c (c.base b) v i :=
  writeIs_of_claims hmap (c.claims_base b) (hrow (c.claims_base b))

/-- Register `r` of a block is written by row `r` of the block; `hrow` is the block's row at each claimed address. -/
theorem writeIs_registerAt (row : Nat → Instr) {r : Nat} (hr : r < b.count)
    (hrow : ∀ {a : Address}, c.claims b a = true → decodeWriteRegister c a v = row (c.offset b a)) :
    WriteIs c (c.registerAt b r) v (row r) := by
  obtain ⟨hclaims, hoffset⟩ := Config.claims_registerAt hmap hr
  exact writeIs_of_claims hmap hclaims ((hrow hclaims).trans (congrArg row hoffset))

end

/-- The first four video DMA addresses are the row WR_VDMA_A. -/
theorem decodeVdma_first (a : BitVec 2) (v : Byte) : decodeVdma a.toNat v = .wrVdmaA a v := by
  rw [decodeVdma, if_pos a.isLt, BitVec.ofNat_toNat, BitVec.setWidth_eq]

/-- The last two video DMA addresses are the row WR_VDMA_B. -/
theorem decodeVdma_last (b : BitVec 1) (v : Byte) : decodeVdma (4 + b.toNat) v = .wrVdmaB b v := by
  rw [decodeVdma, if_neg (by omega), Nat.add_sub_cancel_left, BitVec.ofNat_toNat, BitVec.setWidth_eq]

/-- An address of the register window that no writable block claims is written by the catch-all row (R139). -/
theorem writeIs_wrRegOther {c : Config} {a : BitVec 12} {v : Byte}
    (hn : ∀ b : RegBlock, b.writable = true → c.claims b (0x2#4 ++ a) = false) :
    WriteIs c (0x2#4 ++ a) v (.wrRegOther a v) := by
  have hrow := (registerAddress_rows c a).2 v
  rwa [decodeWriteRegister_unknown hn, setWidth_append_low] at hrow

/-- An address of a block without a read handler is read by the catch-all row: no other block claims it (R118). -/
theorem readIs_rdRegUnknown_of_claims {c : Config} {b : RegBlock} {a : Address} (hmap : c.legalMap = true)
    (hb : c.claims b a = true) (hunread : b.readable = false) : ReadIs c a (.rdRegUnknown (a.setWidth 12)) := by
  refine readIs_of_claims hmap hb (decodeReadRegister_unknown fun d hread => ?unclaimed)
  case unclaimed =>
    have hbd : b ≠ d := ne_of_apply_ne RegBlock.readable (by rw [hunread, hread]; decide)
    exact Config.claims_unique hmap hb hbd

end Sys2Proof

namespace Sys2Proof.Machine

/-! ### The fields of the system-control value as numbers (R96) -/

theorem sysctlBank_eq_ofNat (v : Byte) : sysctlBank v = BitVec.ofNat 3 (v.toNat / 32) := by
  apply BitVec.eq_of_toNat_eq
  rw [sysctlBank, BitVec.extractLsb'_toNat, BitVec.toNat_ofNat, Nat.shiftRight_eq_div_pow]

theorem sysctlNmi_iff (v : Byte) : sysctlNmi v = true ↔ v.toNat % 2 = 1 := by
  rw [sysctlNmi, BitVec.getLsbD, Nat.testBit_zero, decide_eq_true_iff]

theorem irqEnable_eq_ite (c : Config) (v : Byte) :
    irqEnable c v = if v &&& c.sysctlIrqMask = 0x02#8 then true else false := by
  rw [irqEnable, Bool.if_true_left, Bool.or_false]

/-- Under the mask 0x03 the comparison looks at the low two bits (D5). -/
theorem irqEnable_iff_of_mask {c : Config} (hmask : c.sysctlIrqMask = 0x03#8) (v : Byte) :
    irqEnable c v = true ↔ v.toNat % 4 = 2 := by
  have hlow : v.toNat &&& (0x03#8).toNat = v.toNat % 4 := Nat.and_two_pow_sub_one_eq_mod v.toNat 2
  rw [irqEnable, decide_eq_true_iff, hmask, ← BitVec.toNat_inj, BitVec.toNat_and, hlow]
  exact Iff.rfl

/-! ### What each row answers (R133 to R135, R138 to R140) -/

section
variable (s : State) (v : Byte)

theorem exec_wrSysctl : exec (.wrSysctl v) s = .next ((writeSysctl s v).withOut (.ack false)) := rfl

theorem exec_wrTimer : exec (.wrTimer v) s = .next ((writeTimer s v).withOut (.ack false)) := rfl

theorem exec_wrVdmaA (a : BitVec 2) : exec (.wrVdmaA a v) s = .next (s.withOut (.ack false)) := rfl

theorem exec_wrVdmaB (a : BitVec 1) : exec (.wrVdmaB a v) s = .next (s.withOut (.ack false)) := rfl

theorem exec_wrLink0 : exec (.wrLink0 v) s = .next (s.withOut (.ack false)) := rfl

theorem exec_wrLink1 : exec (.wrLink1 v) s = .next (s.withOut (.ack false)) := rfl

theorem exec_wrRomBank (a : BitVec 14) : exec (.wrRomBank a v) s = .next (s.withOut (.ack false)) := rfl

theorem exec_wrRomFixed (a : BitVec 14) : exec (.wrRomFixed a v) s = .next (s.withOut (.ack false)) := rfl

theorem exec_wrRegOther (a : BitVec 12) : exec (.wrRegOther a v) s = .next (s.withOut (.ack true)) := rfl

theorem exec_wrUnmapped3 (a : BitVec 12) : exec (.wrUnmapped3 a v) s = .next (s.withOut (.ack true)) := rfl

theorem exec_wrUnmapped6 (a : BitVec 13) : exec (.wrUnmapped6 a v) s = .next (s.withOut (.ack true)) := rfl

@[simp] theorem writeSysctl_nmiEn : (writeSysctl s v).nmiEn = sysctlNmi v := rfl

@[simp] theorem writeSysctl_timer : (writeSysctl s v).timer =
    { s.timer with en := irqEnable s.cfg v, slow := sysctlSlow s.cfg v } := rfl

end

/-! ### The statements -/

/-- Settles O23: the four fields of the value as numbers. With the mask 0x03 the two enables ask for `v mod 4 = 2` and
for an odd `v`, which exclude each other. -/
theorem systemControlWriteReplacesAllFourFields : Obligations.SystemControlWriteReplacesAllFourFields := by
  intro s v
  refine ⟨fun hmap => writeIs_base hmap .sysctl (decodeWriteRegister_sysctl hmap · v), ?replaces,
    fun hmask t ht => ?enables⟩
  case replaces => rw [exec_wrSysctl, writeSysctl, sysctlBank_eq_ofNat, sysctlNmi, irqEnable_eq_ite, sysctlSlow]
  case enables =>
    rw [exec_wrSysctl] at ht
    cases ht
    rw [State.withOut_timer, State.withOut_nmiEn, writeSysctl_timer, writeSysctl_nmiEn, irqEnable_iff_of_mask hmask,
      sysctlNmi_iff]
    exact ⟨Iff.rfl, Iff.rfl, by omega⟩

/-- Settles O24: the write fires or it does not. -/
theorem timerValueWriteSetsTheCounterAndZeroFires : Obligations.TimerValueWriteSetsTheCounterAndZeroFires := by
  intro s v
  refine ⟨fun hmap => writeIs_base hmap .timer (decodeWriteRegister_timer hmap · v), fun ⟨hzero, hen⟩ => ?fires,
    fun hquiet => ?sets⟩
  case fires => rw [exec_wrTimer, writeTimer_fires hzero hen, hzero]
  case sets => rw [exec_wrTimer, writeTimer_quiet hquiet]

/-- Settles O25: the rows of the two reserved ranges by register number, those of ROM by region, and the answer of each;
neither reserved range has a read handler. -/
theorem reservedAndRomWritesAreDiscardedSilently : Obligations.ReservedAndRomWritesAreDiscardedSilently := by
  intro s v a b r
  refine ⟨fun hmap => ⟨?vdmaFirst, ?vdmaLast, ?link0, ?link1, ?reads⟩, (romBankAddress_rows s.cfg r).2 v,
    (romFixedAddress_rows s.cfg r).2 v, exec_wrVdmaA s v a, exec_wrVdmaB s v b, exec_wrLink0 s v, exec_wrLink1 s v,
    exec_wrRomBank s v r, exec_wrRomFixed s v r⟩
  case vdmaFirst =>
    have hr : a.toNat < RegBlock.vdma.count := Nat.lt_trans a.isLt (by decide)
    rw [← decodeVdma_first]
    exact writeIs_registerAt hmap .vdma (decodeVdma · v) hr (decodeWriteRegister_vdma hmap · v)
  case vdmaLast =>
    have hr : 4 + b.toNat < RegBlock.vdma.count := Nat.add_lt_add_left b.isLt 4
    rw [← decodeVdma_last]
    exact writeIs_registerAt hmap .vdma (decodeVdma · v) hr (decodeWriteRegister_vdma hmap · v)
  case link0 =>
    exact writeIs_registerAt hmap .link (decodeLink · v) (by decide) (decodeWriteRegister_link hmap · v)
  case link1 =>
    exact writeIs_registerAt hmap .link (decodeLink · v) (by decide) (decodeWriteRegister_link hmap · v)
  case reads =>
    rintro x (hvdma | hlink)
    · exact readIs_rdRegUnknown_of_claims hmap hvdma rfl
    · exact readIs_rdRegUnknown_of_claims hmap hlink rfl

/-- Settles O26: the three rows by address, and the one answer they share. -/
theorem unknownAndUnmappedWritesReportTheDiagnostic : Obligations.UnknownAndUnmappedWritesReportTheDiagnostic :=
  fun s v a b => ⟨writeIs_wrRegOther, (unmapped3Address_rows s.cfg a).2 v, (unmapped6Address_rows s.cfg b).2 v,
    exec_wrRegOther s v a, exec_wrUnmapped3 s v a, exec_wrUnmapped6 s v b⟩

end Sys2Proof.Machine
end

section
/-! PROOFS. The interrupt timer, FRAME and TAKEIRQ (42_timer_irq.md R150, R151, R153, R154). A TICK fires or counts, so as
long as none fires, `n` TICKs are `n` counts. Counts have a closed form from a cleared accumulator: the counter falls by 1
every `ticksPerCount` counts. The statements about many TICKs are readings of that form. -/

namespace Sys2Proof

/-! ### The row of a kind (30_encoding.md R91, R92) -/

/-- Only READ and WRITE use the address and data fields. -/
theorem decode_makeWord_of_kind (c : Config) {k : BitVec 3} (hread : k ≠ 0b000#3) (hwrite : k ≠ 0b001#3)
    (a : Address) (z : Byte) : decode c (makeWord k a z) = decode c (makeWord k 0 0) := by
  simp [decode, decodeOperation, hread, hwrite]

theorem kindIs_iff {c : Config} {k : BitVec 3} (hread : k ≠ 0b000#3) (hwrite : k ≠ 0b001#3) (i : Instr) :
    KindIs c k i ↔ decode c (makeWord k 0 0) = .ok i :=
  ⟨fun h => h 0 0, fun h a z => (decode_makeWord_of_kind c hread hwrite a z).trans h⟩

theorem kindIs_tick (c : Config) : KindIs c 0b010 .tick :=
  (kindIs_iff (by decide) (by decide) _).2 (decode_word c .tick)

theorem kindIs_frame (c : Config) : KindIs c 0b011 .frame :=
  (kindIs_iff (by decide) (by decide) _).2 (decode_word c .frame)

theorem kindIs_takeIrq (c : Config) : KindIs c 0b101 .takeIrq :=
  (kindIs_iff (by decide) (by decide) _).2 (decode_word c .takeIrq)

end Sys2Proof

namespace Sys2Proof.Machine

/-! ### What each operation answers -/

section
variable (s : State)

theorem exec_frame : exec .frame s = .next (s.withOut (.nmi s.nmiEn)) := rfl

theorem exec_takeIrq : exec .takeIrq s = .next ((s.withIrqPend false).withOut (.irq s.irqPend)) := rfl

theorem exec_reset : exec .reset s = .next (resetState s) := rfl

@[simp] theorem resetState_cfg : (resetState s).cfg = s.cfg := rfl

@[simp] theorem resetState_timer : (resetState s).timer = { en := false, slow := false, cnt := 0, acc := 0 } := rfl

end

section
variable {s : State}

theorem exec_tick_fires (hen : s.timer.en = true) (hcnt : s.timer.cnt = 0) :
    exec .tick s = .next (((s.withTimer { s.timer with en := false }).withIrqPend true).withOut .none) := by
  obtain ⟨_, _, hfires⟩ | ⟨hquiet, _⟩ := execTick_effect s
  · exact hfires
  · exact absurd ⟨hen, hcnt⟩ hquiet

theorem exec_tick_counts (hquiet : ¬ (s.timer.en = true ∧ s.timer.cnt = 0)) :
    exec .tick s = .next ((s.withTimer (timerCount s.timer)).withOut .none) := by
  obtain ⟨hen, hcnt, _⟩ | ⟨_, hcounts⟩ := execTick_effect s
  · exact absurd ⟨hen, hcnt⟩ hquiet
  · exact hcounts

end

/-! ### One count of the timer (R150) -/

section
variable {t : Timer}

/-- Subtracting 1 modulo 256 is adding 255. -/
theorem byte_sub_one (b : Byte) : b - 1 = BitVec.ofNat 8 (b.toNat + 255) := by
  bv_omega

theorem timerCount_fast (hfast : t.slow = false) : timerCount t = { t with cnt := t.cnt - 1 } := by
  simp [timerCount, hfast]

theorem timerCount_slow_below (hslow : t.slow = true) (hacc : t.acc + 256 < 16384) :
    timerCount t = { t with acc := t.acc + 256 } := by
  simp [timerCount, hslow, Nat.not_le.2 hacc]

theorem timerCount_slow_reaches (hslow : t.slow = true) (hacc : 16384 ≤ t.acc + 256) :
    timerCount t = { t with cnt := t.cnt - 1, acc := 0 } := by
  simp [timerCount, hslow, hacc]

end

/-! ### Many counts -/

/-- How many counts make one decrement: the divisor over the fast divisor 256. -/
def Timer.ticksPerCount (t : Timer) : Nat := if t.slow then 64 else 1

theorem Timer.ticksPerCount_fast {t : Timer} (hfast : t.slow = false) : t.ticksPerCount = 1 := by
  simp [Timer.ticksPerCount, hfast]

theorem Timer.ticksPerCount_slow {t : Timer} (hslow : t.slow = true) : t.ticksPerCount = 64 := by
  simp [Timer.ticksPerCount, hslow]

theorem Timer.ticksPerCount_pos (t : Timer) : 0 < t.ticksPerCount := by
  cases hslow : t.slow
  · rw [Timer.ticksPerCount_fast hslow]; decide
  · rw [Timer.ticksPerCount_slow hslow]; decide

/-- The timer `n` counts after `t`, whose accumulator is clear. -/
def Timer.afterCounts (t : Timer) (n : Nat) : Timer :=
  { t with cnt := t.cnt - BitVec.ofNat 8 (n / t.ticksPerCount), acc := 256 * (n % t.ticksPerCount) }

theorem Timer.afterCounts_zero {t : Timer} (hacc : t.acc = 0) : t.afterCounts 0 = t := by
  obtain ⟨en, slow, cnt, acc⟩ := t
  cases hacc
  simp [Timer.afterCounts]

theorem sub_ofNat_sub_one (b : Byte) (m : Nat) : b - BitVec.ofNat 8 m - 1 = b - BitVec.ofNat 8 (m + 1) := by
  bv_omega

/-- One count more: fast, slow below the divisor, or slow reaching it. -/
theorem timerCount_afterCounts (t : Timer) (n : Nat) : timerCount (t.afterCounts n) = t.afterCounts (n + 1) := by
  cases hslow : t.slow
  case false =>
    rw [timerCount_fast (t := t.afterCounts n) hslow]
    simp only [Timer.afterCounts, Timer.ticksPerCount_fast hslow, Nat.div_one, Nat.mod_one, sub_ofNat_sub_one]
  case true =>
    by_cases hlast : n % 64 = 63
    · have hacc : 16384 ≤ (t.afterCounts n).acc + 256 := by
        simp only [Timer.afterCounts, Timer.ticksPerCount_slow hslow]; omega
      have hdiv : (n + 1) / 64 = n / 64 + 1 := by omega
      have hmod : (n + 1) % 64 = 0 := by omega
      rw [timerCount_slow_reaches (t := t.afterCounts n) hslow hacc]
      simp only [Timer.afterCounts, Timer.ticksPerCount_slow hslow, hdiv, hmod, Nat.mul_zero, sub_ofNat_sub_one]
    · have hacc : (t.afterCounts n).acc + 256 < 16384 := by
        simp only [Timer.afterCounts, Timer.ticksPerCount_slow hslow]; omega
      have hdiv : (n + 1) / 64 = n / 64 := by omega
      have hmod : (n + 1) % 64 = n % 64 + 1 := by omega
      rw [timerCount_slow_below (t := t.afterCounts n) hslow hacc]
      simp only [Timer.afterCounts, Timer.ticksPerCount_slow hslow, hdiv, hmod, Nat.mul_add, Nat.mul_one]

theorem toNat_sub_ofNat {b : Byte} {m : Nat} (h : m ≤ b.toNat) : (b - BitVec.ofNat 8 m).toNat = b.toNat - m := by
  bv_omega

/-- The counter after `n` counts, as a number, until it reaches 0. -/
theorem Timer.afterCounts_cnt_toNat {t : Timer} {n : Nat} (hn : n ≤ t.ticksPerCount * t.cnt.toNat) :
    (t.afterCounts n).cnt.toNat = t.cnt.toNat - n / t.ticksPerCount :=
  toNat_sub_ofNat (Nat.div_le_of_le_mul hn)

/-- After all its counts the counter is 0. -/
theorem Timer.afterCounts_all_cnt (t : Timer) : (t.afterCounts (t.ticksPerCount * t.cnt.toNat)).cnt = 0 := by
  apply BitVec.eq_of_toNat_eq
  rw [Timer.afterCounts_cnt_toNat (Nat.le_refl _), Nat.mul_div_cancel_left _ t.ticksPerCount_pos, Nat.sub_self]
  rfl

/-- Before that it is not. -/
theorem Timer.afterCounts_cnt_ne_zero {t : Timer} {n : Nat} (hn : n < t.ticksPerCount * t.cnt.toNat) :
    (t.afterCounts n).cnt ≠ 0 := by
  intro hzero
  have hleft : n / t.ticksPerCount < t.cnt.toNat := Nat.div_lt_of_lt_mul hn
  have hcnt := Timer.afterCounts_cnt_toNat (Nat.le_of_lt hn)
  rw [hzero] at hcnt
  exact Nat.sub_ne_zero_of_lt hleft hcnt.symm

/-! ### Many ticks -/

/-- The last of `n + 1` applications of an instruction, after the first `n`. -/
theorem applyTimes_succ_of_next {i : Instr} {n : Nat} {s t : State} (h : applyTimes i n s = .next t) :
    applyTimes i (n + 1) s = exec i t := by
  induction n generalizing s with
  | zero =>
    cases h
    rw [applyTimes]
    cases exec i t <;> rfl
  | succ n ih =>
    rw [applyTimes] at h ⊢
    cases hexec : exec i s with
    | next u =>
      rw [hexec] at h
      exact ih h
    | fault f => rw [hexec] at h; cases h
    | refused r => rw [hexec] at h; cases h

/-- The result after a number of TICKs, from the result before: TICK returns nothing, and 0 TICKs leave it. -/
def resultAfterTicks (r : Response) : Nat → Response
  | 0 => r
  | _ + 1 => .none

/-- As long as none of them fires, `n` TICKs from a cleared accumulator are `n` counts, and nothing else changes. -/
theorem applyTimes_tick_counts {s : State} {n : Nat} (hacc : s.timer.acc = 0)
    (hquiet : ∀ m, m < n → ¬ (s.timer.en = true ∧ (s.timer.afterCounts m).cnt = 0)) :
    applyTimes .tick n s = .next ((s.withTimer (s.timer.afterCounts n)).withOut (resultAfterTicks s.out n)) := by
  induction n with
  | zero => rw [Timer.afterCounts_zero hacc]; rfl
  | succ n ih =>
    rw [applyTimes_succ_of_next (ih fun m hm => hquiet m (Nat.lt_succ_of_lt hm)),
      exec_tick_counts (hquiet n (Nat.lt_succ_self n))]
    simp [timerCount_afterCounts, resultAfterTicks]

/-- The TICKs that bring the counter from a cleared accumulator to 0 do not fire. -/
theorem applyTimes_tick_countdown {u : State} {k : Nat} (hacc : u.timer.acc = 0)
    (hk : k ≤ u.timer.ticksPerCount * u.timer.cnt.toNat) :
    applyTimes .tick k u = .next ((u.withTimer (u.timer.afterCounts k)).withOut (resultAfterTicks u.out k)) :=
  applyTimes_tick_counts hacc fun _ hm ⟨_, hzero⟩ =>
    Timer.afterCounts_cnt_ne_zero (Nat.lt_of_lt_of_le hm hk) hzero

/-- R151 in both modes: an enabled timer with a cleared accumulator counts down to 0 without firing, and the TICK after
the one that reaches 0 raises the interrupt. -/
theorem timer_counts_down_and_fires {u : State} (hen : u.timer.en = true) (hacc : u.timer.acc = 0) :
    (∀ k, k ≤ u.timer.ticksPerCount * u.timer.cnt.toNat →
      ∃ t, applyTimes .tick k u = .next t ∧ t.timer.cnt.toNat = u.timer.cnt.toNat - k / u.timer.ticksPerCount ∧
        t.timer.en = true ∧ t.irqPend = u.irqPend) ∧
    ∃ t, applyTimes .tick (u.timer.ticksPerCount * u.timer.cnt.toNat + 1) u = .next t ∧ t.timer.cnt = 0 ∧
      t.timer.en = false ∧ t.irqPend = true := by
  have hzero := u.timer.afterCounts_all_cnt
  have hdown := applyTimes_tick_countdown hacc (Nat.le_refl _)
  exact ⟨fun k hk => ⟨_, applyTimes_tick_countdown hacc hk, Timer.afterCounts_cnt_toNat hk, hen, rfl⟩,
    _, (applyTimes_succ_of_next hdown).trans (exec_tick_fires hen hzero), hzero, rfl, rfl⟩

/-- R151 in both modes, from the write of a value that is not 0: it does not fire, and it clears the accumulator. -/
theorem written_timer_counts_down_and_fires {s : State} {v : Byte} (hen : s.timer.en = true) (hv : v ≠ 0) :
    (∀ k, k ≤ s.timer.ticksPerCount * v.toNat →
      ∃ t, applyTimes .tick k ((writeTimer s v).withOut (.ack false)) = .next t ∧
        t.timer.cnt.toNat = v.toNat - k / s.timer.ticksPerCount ∧ t.timer.en = true ∧ t.irqPend = s.irqPend) ∧
    ∃ t, applyTimes .tick (s.timer.ticksPerCount * v.toNat + 1) ((writeTimer s v).withOut (.ack false)) = .next t ∧
      t.timer.cnt = 0 ∧ t.timer.en = false ∧ t.irqPend = true := by
  rw [writeTimer_quiet fun hfires => hv hfires.1]
  exact timer_counts_down_and_fires (u := (s.withTimer { s.timer with cnt := v, acc := 0 }).withOut (.ack false)) hen rfl

/-- The counter stands still for 63 slow TICKs, so where the first does not fire none does: 64 are one decrement (R150). -/
theorem applyTimes_tick_64_slow {s : State} (hquiet : ¬ (s.timer.en = true ∧ s.timer.cnt = 0))
    (hslow : s.timer.slow = true) (hacc : s.timer.acc = 0) :
    applyTimes .tick 64 s = .next ((s.withTimer { s.timer with cnt := s.timer.cnt - 1 }).withOut .none) := by
  have hperiod := Timer.ticksPerCount_slow hslow
  have hsame : ∀ m, m < 64 → (s.timer.afterCounts m).cnt = s.timer.cnt := fun m hm => by
    simp [Timer.afterCounts, hperiod, Nat.div_eq_of_lt hm]
  have hlast : s.timer.afterCounts 64 = { s.timer with cnt := s.timer.cnt - 1 } := by
    simp [Timer.afterCounts, hperiod, hacc]
  rw [applyTimes_tick_counts hacc fun m hm => hsame m hm ▸ hquiet, hlast]
  rfl

/-! ### The statements -/

/-- Settles O27: the row by its kind, the firing TICK, and the three cases of a count; the last clause is the closed form
of 64 counts. -/
theorem tickFiresOrCounts : Obligations.TickFiresOrCounts := by
  intro s
  simp only [← byte_sub_one]
  refine ⟨kindIs_tick s.cfg, fun ⟨hen, hcnt⟩ => exec_tick_fires hen hcnt, fun hquiet hfast => ?fast,
    fun hquiet hslow hacc => ?slowBelow, fun hquiet hslow hacc => ?slowReaches, applyTimes_tick_64_slow⟩
  case fast => rw [exec_tick_counts hquiet, timerCount_fast hfast]
  case slowBelow => rw [exec_tick_counts hquiet, timerCount_slow_below hslow hacc]
  case slowReaches => rw [exec_tick_counts hquiet, timerCount_slow_reaches hslow hacc]

/-- Settles O28: 0 fires at the write; any other value leaves an enabled timer with a cleared accumulator, which counts
down and fires in either mode; after RESET the enabled timer stands at 0, so the first TICK fires. -/
theorem timerFiresOneTickAfterReachingZero : Obligations.TimerFiresOneTickAfterReachingZero := by
  intro s v
  refine ⟨fun hen => ?written, fun hmask => ?afterReset⟩
  case written =>
    refine ⟨_, exec_wrTimer s v, fun hzero => ?zero, fun hv hfast => ?fast, fun hv hslow => ?slow⟩
    case zero => rw [writeTimer_fires hzero hen]; exact ⟨rfl, rfl⟩
    case fast =>
      simpa [Timer.ticksPerCount_fast hfast] using written_timer_counts_down_and_fires hen hv
    case slow =>
      rw [← Timer.ticksPerCount_slow hslow]
      exact written_timer_counts_down_and_fires hen hv
  case afterReset =>
    have hen : irqEnable s.cfg 0x02 = true := decide_eq_true hmask
    exact ⟨_, _, _, exec_reset s, exec_wrSysctl _ _, exec_tick_fires (by simpa using hen) rfl, rfl, rfl⟩

/-- Settles O30: the row by its kind, and the answer of FRAME. -/
theorem frameReturnsTheNmiGate : Obligations.FrameReturnsTheNmiGate :=
  fun s => ⟨kindIs_frame s.cfg, exec_frame s⟩

/-- Settles O31: the second TAKEIRQ finds the latch the first one cleared. -/
theorem takeIrqReturnsAndClearsTheLatch : Obligations.TakeIrqReturnsAndClearsTheLatch :=
  fun s => ⟨kindIs_takeIrq s.cfg, exec_takeIrq s, exec_takeIrq (s.withIrqPend false)⟩

end Sys2Proof.Machine
end

section
/-! PROOFS. The writes of the sound registers (43_sound_registers.md R166 to R178). The row of each register comes from
its block and its number, what a write stores is one equation per register, said once for both square channels, and the
fields of the value are read as numbers (30_encoding.md R97, R98, R100). The trigger write has one lemma per case. -/

namespace Sys2Proof

/-! ### The rows of the sound registers (R94, R165) -/

section
variable {c : Config} (hmap : c.legalMap = true) (v : Byte) (r : Nat)
include hmap

theorem writeIs_sq0 (hr : r < RegBlock.sq0.count) : WriteIs c (c.registerAt .sq0 r) v (decodeSquare0 r v) :=
  writeIs_registerAt hmap .sq0 (decodeSquare0 · v) hr (decodeWriteRegister_sq0 hmap · v)

theorem writeIs_sq1 (hr : r < RegBlock.sq1.count) : WriteIs c (c.registerAt .sq1 r) v (decodeSquare1 r v) :=
  writeIs_registerAt hmap .sq1 (decodeSquare1 · v) hr (decodeWriteRegister_sq1 hmap · v)

theorem writeIs_pcm (hr : r < RegBlock.pcm.count) : WriteIs c (c.registerAt .pcm r) v (decodePcm r v) :=
  writeIs_registerAt hmap .pcm (decodePcm · v) hr (decodeWriteRegister_pcm hmap · v)

theorem writeIs_noise (hr : r < RegBlock.noise.count) : WriteIs c (c.registerAt .noise r) v (decodeNoise r v) :=
  writeIs_registerAt hmap .noise (decodeNoise · v) hr (decodeWriteRegister_noise hmap · v)

end

end Sys2Proof

namespace Sys2Proof.Machine

/-! ### What each row answers -/

section
variable (s : State) (v : Byte)

theorem exec_wrSq0R0 : exec (.wrSq0R0 v) s = .next ((s.withSq0 (squareWritePlo s.sq0 v)).withOut (.ack false)) := rfl

theorem exec_wrSq0R1 : exec (.wrSq0R1 v) s = .next ((s.withSq0 (squareWritePhi s.sq0 v)).withOut (.ack false)) := rfl

theorem exec_wrSq0R2 :
    exec (.wrSq0R2 v) s = .next ((s.withSq0 (squareWriteControl s.sq0 v)).withOut (.ack false)) := rfl

theorem exec_wrSq0R3 :
    exec (.wrSq0R3 v) s = .next ((s.withSq0 (squareWriteLength s.sq0 v)).withOut (.ack false)) := rfl

theorem exec_wrSq1R0 : exec (.wrSq1R0 v) s = .next ((s.withSq1 (squareWritePlo s.sq1 v)).withOut (.ack false)) := rfl

theorem exec_wrSq1R1 : exec (.wrSq1R1 v) s = .next ((s.withSq1 (squareWritePhi s.sq1 v)).withOut (.ack false)) := rfl

theorem exec_wrSq1R2 :
    exec (.wrSq1R2 v) s = .next ((s.withSq1 (squareWriteControl s.sq1 v)).withOut (.ack false)) := rfl

theorem exec_wrSq1R3 :
    exec (.wrSq1R3 v) s = .next ((s.withSq1 (squareWriteLength s.sq1 v)).withOut (.ack false)) := rfl

theorem exec_wrNoiseR0 :
    exec (.wrNoiseR0 v) s = .next ((s.withNoise (noiseWriteR0 s.noise v)).withOut (.ack false)) := rfl

theorem exec_wrNoiseR1 :
    exec (.wrNoiseR1 v) s = .next ((s.withNoise (noiseWriteR1 s.noise v)).withOut (.ack false)) := rfl

theorem exec_wrNoiseR2 :
    exec (.wrNoiseR2 v) s = .next ((s.withNoise (noiseWriteR2 s.cfg s.noise v)).withOut (.ack false)) := rfl

theorem exec_wrPcmR0 : exec (.wrPcmR0 v) s = .next ((s.withPcm (pcmWriteR0 s.pcm v)).withOut (.ack false)) := rfl

theorem exec_wrPcmR1 : exec (.wrPcmR1 v) s = .next ((s.withPcm (pcmWriteR1 s.pcm v)).withOut (.ack false)) := rfl

theorem exec_wrPcmR2 : exec (.wrPcmR2 v) s = .next ((s.withPcm (pcmWriteR2 s.pcm v)).withOut (.ack false)) := rfl

theorem exec_wrPcmR3 :
    exec (.wrPcmR3 v) s = .next ((s.withPcm (pcmWriteR3 s.cfg s.pcm v)).withOut (.ack false)) := rfl

theorem exec_wrPcmR4 : exec (.wrPcmR4 v) s = .next (finishFetchingWrite s (pcmWriteR4 s v)) := rfl

@[simp] theorem finishFetchingWrite_done (x : Unit) (d : Bool) (t : State) :
    finishFetchingWrite s (.done x d t) = t.withOut (.ack d) := rfl

@[simp] theorem finishFetchingWrite_fault (f : Fault) : finishFetchingWrite s (.fault f) = s.withOut (.faulted f) := rfl

end

/-! ### The fields of the values as numbers (R97, R98) -/

/-- A field of a byte is the byte shifted down, modulo the width of the field. -/
theorem field_eq_ofNat (v : Byte) (lsb width : Nat) :
    v.extractLsb' lsb width = BitVec.ofNat width (v.toNat / 2 ^ lsb) := by
  rw [BitVec.extractLsb', Nat.shiftRight_eq_div_pow]

theorem low_field_eq_ofNat (v : Byte) (width : Nat) : v.extractLsb' 0 width = BitVec.ofNat width v.toNat := by
  rw [field_eq_ofNat, Nat.pow_zero, Nat.div_one]

theorem squarePhi_eq_ofNat (v : Byte) : squarePhi v = BitVec.ofNat 3 v.toNat := low_field_eq_ofNat v 3

theorem squareDuty_eq_ofNat (v : Byte) : squareDuty v = BitVec.ofNat 2 (v.toNat / 16) := field_eq_ofNat v 4 2

theorem squareVol_eq_ofNat (v : Byte) : squareVol v = BitVec.ofNat 4 v.toNat := low_field_eq_ofNat v 4

theorem noiseFreq_eq_ofNat (v : Byte) : noiseFreq v = BitVec.ofNat 4 (v.toNat / 16) := field_eq_ofNat v 4 4

theorem noiseVol_eq_ofNat (v : Byte) : noiseVol v = BitVec.ofNat 4 v.toNat := low_field_eq_ofNat v 4

/-! ### What a write stores in a square channel (R166 to R169) -/

/-- The size of a period with the two numbers of 00_scope.md R9 in place. -/
theorem squareSize_eq (period : Nat) : squareSize period = (44100 * (period + 1) * 32) / 4000000 := rfl

theorem squareWritePlo_eq (q : Square) (v : Byte) :
    squareWritePlo q v =
      { q with plo := v, size := (44100 * (q.phi.toNat * 256 + v.toNat + 1) * 32) / 4000000, pos := 0 } := by
  rw [squareWritePlo, squareRecompute, squareSize_eq, squarePeriod]

theorem squareWritePhi_eq (q : Square) (v : Byte) :
    squareWritePhi q v =
      { q with
        phi := BitVec.ofNat 3 v.toNat,
        size := (44100 * (v.toNat % 8 * 256 + q.plo.toNat + 1) * 32) / 4000000, pos := 0 } := by
  have hphi : (BitVec.ofNat 3 v.toNat).toNat = v.toNat % 8 := BitVec.toNat_ofNat v.toNat 3
  rw [squareWritePhi, squareRecompute, squareSize_eq, squarePeriod, squarePhi_eq_ofNat, hphi]

theorem squareWriteControl_eq (q : Square) (v : Byte) :
    squareWriteControl q v =
      { q with
        en := v.getLsbD 6, duty := BitVec.ofNat 2 (v.toNat / 16), vol := BitVec.ofNat 4 v.toNat } := by
  rw [squareWriteControl, squareEn, squareDuty_eq_ofNat, squareVol_eq_ofNat]

/-! ### The trigger write, case by case (R178) -/

theorem pcmTrigger_iff (v : Byte) : pcmTrigger v = true ↔ 128 ≤ v.toNat := by
  have hmsb : pcmTrigger v = v.msb := (BitVec.msb_eq_getLsbD_last v).symm
  rw [hmsb, BitVec.msb_eq_decide, decide_eq_true_iff]

theorem freshTrigger_iff (d : Pcm) : freshTrigger d = true ↔ ¬ (d.trig = true ∧ 0 < d.played) := by
  rw [freshTrigger, Bool.not_eq_true', ← Bool.not_eq_true, Bool.and_eq_true, decide_eq_true_iff]

/-- The start address is little-endian (10_state.md R43). -/
theorem pcmStart_eq_ofNat (d : Pcm) : pcmStart d = BitVec.ofNat 16 (d.ahi.toNat * 256 + d.alo.toNat) := by
  have hlo := d.alo.isLt
  have hhi := d.ahi.isLt
  apply BitVec.eq_of_toNat_eq
  rw [pcmStart, toNat_append_eq, BitVec.toNat_ofNat]
  omega

section
variable {s : State} {v : Byte}

theorem pcmWriteR4_of_no_trigger (hv : v.toNat < 128) : pcmWriteR4 s v = .done () false s := by
  have hbit : ¬ pcmTrigger v = true := by rw [pcmTrigger_iff]; omega
  rw [pcmWriteR4, if_neg hbit]

/-- A trigger inside a playback sets `D.trig`, which is set already. -/
theorem pcmWriteR4_of_retrigger (hv : 128 ≤ v.toNat) (htrig : s.pcm.trig = true) (hplayed : 0 < s.pcm.played) :
    pcmWriteR4 s v = .done () false s := by
  have hstale : ¬ freshTrigger s.pcm = true := fun h => (freshTrigger_iff s.pcm).1 h ⟨htrig, hplayed⟩
  have hsame : { s.pcm with trig := true } = s.pcm := by rw [← htrig]
  rw [pcmWriteR4, if_pos ((pcmTrigger_iff v).2 hv), if_neg hstale, hsame, State.withPcm_self]

variable (hv : 128 ≤ v.toNat) (hfresh : ¬ (s.pcm.trig = true ∧ 0 < s.pcm.played))
include hv hfresh

/-- The fetch does not look at the PCM channel, so it is the fetch of the state before the restart. -/
theorem pcmWriteR4_of_fetch_done {b : Byte} {d : Bool} {t : State}
    (hfetch : busRead s (pcmStart s.pcm) = .done b d t) :
    pcmWriteR4 s v = .done () d (t.withPcm { pcmRestart s.pcm with byte := b, trig := true }) := by
  rw [pcmWriteR4, if_pos ((pcmTrigger_iff v).2 hv), if_pos ((freshTrigger_iff s.pcm).2 hfresh), busRead_withPcm, hfetch]
  rfl

theorem pcmWriteR4_of_fetch_fault {f : Fault} (hfetch : busRead s (pcmStart s.pcm) = .fault f) :
    pcmWriteR4 s v = .fault f := by
  rw [pcmWriteR4, if_pos ((pcmTrigger_iff v).2 hv), if_pos ((freshTrigger_iff s.pcm).2 hfresh), busRead_withPcm, hfetch]

end

/-! ### The statements -/

/-- Settles O39: the row by its number, and the four cases of the trigger by their lemmas. -/
theorem pcmTriggerWrite : Obligations.PcmTriggerWrite := by
  intro s v
  rw [← pcmStart_eq_ofNat]
  refine ⟨fun hmap => writeIs_pcm hmap v 4 (by decide), fun hv => ?noTrigger, fun hv htrig hplayed => ?retrigger,
    fun hv hfresh => ⟨fun b d t hfetch => ?done, fun f hfetch => ?fault⟩⟩
  case noTrigger => rw [exec_wrPcmR4, pcmWriteR4_of_no_trigger hv, finishFetchingWrite_done]
  case retrigger => rw [exec_wrPcmR4, pcmWriteR4_of_retrigger hv htrig hplayed, finishFetchingWrite_done]
  case done => rw [exec_wrPcmR4, pcmWriteR4_of_fetch_done hv hfresh hfetch, finishFetchingWrite_done, pcmRestart]
  case fault => rw [exec_wrPcmR4, pcmWriteR4_of_fetch_fault hv hfresh hfetch, finishFetchingWrite_fault]

/-- Settles O35: the eight rows by channel and number, and what each register stores, the same for both channels. -/
theorem squareRegisterWrites : Obligations.SquareRegisterWrites := by
  intro s v
  simp only [← squareWritePlo_eq, ← squareWritePhi_eq, ← squareWriteControl_eq]
  refine ⟨fun hmap => ⟨?sq0R0, ?sq0R1, ?sq0R2, ?sq0R3, ?sq1R0, ?sq1R1, ?sq1R2, ?sq1R3⟩,
    exec_wrSq0R0 s v, exec_wrSq0R1 s v, exec_wrSq0R2 s v, exec_wrSq0R3 s v,
    exec_wrSq1R0 s v, exec_wrSq1R1 s v, exec_wrSq1R2 s v, exec_wrSq1R3 s v⟩
  case sq0R0 => exact writeIs_sq0 hmap v 0 (by decide)
  case sq0R1 => exact writeIs_sq0 hmap v 1 (by decide)
  case sq0R2 => exact writeIs_sq0 hmap v 2 (by decide)
  case sq0R3 => exact writeIs_sq0 hmap v 3 (by decide)
  case sq1R0 => exact writeIs_sq1 hmap v 0 (by decide)
  case sq1R1 => exact writeIs_sq1 hmap v 1 (by decide)
  case sq1R2 => exact writeIs_sq1 hmap v 2 (by decide)
  case sq1R3 => exact writeIs_sq1 hmap v 3 (by decide)

/-- Settles O37: the three rows by number; registers 1 and 2 store what the model's own operations say. -/
theorem noiseRegisterWrites : Obligations.NoiseRegisterWrites := by
  intro s v
  refine ⟨fun hmap => ⟨?row0, ?row1, ?row2⟩, ?frequencyAndVolume, exec_wrNoiseR1 s v, exec_wrNoiseR2 s v⟩
  case row0 => exact writeIs_noise hmap v 0 (by decide)
  case row1 => exact writeIs_noise hmap v 1 (by decide)
  case row2 => exact writeIs_noise hmap v 2 (by decide)
  case frequencyAndVolume => rw [exec_wrNoiseR0, noiseWriteR0, noiseFreq_eq_ofNat, noiseVol_eq_ofNat]

/-- Settles O38: the four rows by number, and what each register stores. -/
theorem pcmRegisterWrites : Obligations.PcmRegisterWrites := by
  intro s v
  refine ⟨fun hmap => ⟨?row0, ?row1, ?row2, ?row3⟩,
    exec_wrPcmR0 s v, exec_wrPcmR1 s v, exec_wrPcmR2 s v, exec_wrPcmR3 s v⟩
  case row0 => exact writeIs_pcm hmap v 0 (by decide)
  case row1 => exact writeIs_pcm hmap v 1 (by decide)
  case row2 => exact writeIs_pcm hmap v 2 (by decide)
  case row3 => exact writeIs_pcm hmap v 3 (by decide)

end Sys2Proof.Machine
end

section
/-! PROOFS. SAMPLE: the square step, the noise step and the LFSR update (44_sound_sample.md R190, R193, R194), one equation
per branch each, and the range of a sample (R199), which is the mix of contributions of at most 15. -/

namespace Sys2Proof.Machine

/-! ### Square channels (R190) -/

/-- A wrap with more than one cycle left keeps the enabled flag. -/
theorem squareAdvance_wrap_long {q : Square} (hwrap : q.size ≤ q.pos + 1) (hlen : 1 < q.len) :
    squareAdvance q = { q with pos := 0, len := q.len - 1 } := by
  have hleft : 0 < q.len - 1 := Nat.sub_pos_of_lt hlen
  rw [squareAdvance_wrap hwrap, decide_eq_true hleft, Bool.and_true]

/-- A wrap in the last cycle, or with no cycle left. -/
theorem squareAdvance_wrap_last {q : Square} (hwrap : q.size ≤ q.pos + 1) (hlen : q.len ≤ 1) :
    squareAdvance q = { q with pos := 0, len := 0, en := false } := by
  have hleft : q.len - 1 = 0 := Nat.sub_eq_zero_of_le hlen
  rw [squareAdvance_wrap hwrap, hleft, decide_eq_false (Nat.lt_irrefl 0), Bool.and_false]

/-- Settles O40: an inert channel, or an active one, whose advance stays inside the waveform or wraps. -/
theorem squareStepFollowsItsRule : Obligations.SquareStepFollowsItsRule := by
  refine fun q => ⟨squareStep_inert, fun he hsize => ?active⟩
  rw [squareStep_active he hsize]
  exact ⟨rfl, squareAdvance_inside, squareAdvance_wrap_long, squareAdvance_wrap_last⟩

/-! ### The LFSR (R194) -/

theorem lfsrFeedback_iff (x : BitVec 15) : lfsrFeedback x = true ↔ x.getLsbD 0 ≠ x.getLsbD 1 := by
  rw [lfsrFeedback, bne_iff_ne]

theorem toNat_shiftRight_one (x : BitVec 15) : (x >>> 1).toNat = x.toNat / 2 := by
  rw [BitVec.toNat_ushiftRight, Nat.shiftRight_eq_div_pow, Nat.pow_one]

/-- Bits 0 and 1 equal: nothing is injected. -/
theorem lfsrShift_toNat_of_eq (m15 : Bool) {x : BitVec 15} (h : x.getLsbD 0 = x.getLsbD 1) :
    (lfsrShift m15 x).toNat = x.toNat / 2 := by
  have hfeedback : ¬ lfsrFeedback x = true := fun hx => (lfsrFeedback_iff x).1 hx h
  rw [lfsrShift, if_neg hfeedback, toNat_shiftRight_one]

/-- In 15-bit mode the feedback is injected above every bit of the shifted value, so it is added. -/
theorem lfsrShift_toNat_fifteen {x : BitVec 15} (h : x.getLsbD 0 ≠ x.getLsbD 1) :
    (lfsrShift true x).toNat = x.toNat / 2 + 0x4000 := by
  have hshifted : x.toNat / 2 < 2 ^ 14 := by have := x.isLt; omega
  have hinject : 2 ^ 14 * 1 + x.toNat / 2 = 2 ^ 14 * 1 ||| x.toNat / 2 := Nat.two_pow_add_eq_or_of_lt hshifted 1
  rw [lfsrShift, if_pos ((lfsrFeedback_iff x).2 h), if_pos rfl, BitVec.toNat_or, toNat_shiftRight_one, Nat.or_comm,
    Nat.add_comm]
  exact hinject.symm

/-- In 7-bit mode the shifted value is masked, and the feedback may find its bit set. -/
theorem lfsrShift_toNat_seven {x : BitVec 15} (h : x.getLsbD 0 ≠ x.getLsbD 1) :
    (lfsrShift false x).toNat = (x.toNat / 2 % 128) ||| 0x40 := by
  have hmask : x.toNat / 2 &&& 0x7F = x.toNat / 2 % 128 := Nat.and_two_pow_sub_one_eq_mod _ 7
  rw [lfsrShift, if_pos ((lfsrFeedback_iff x).2 h), if_neg Bool.false_ne_true, BitVec.toNat_or, BitVec.toNat_and,
    toNat_shiftRight_one, ← hmask]
  rfl

/-- Settles O44: the shift by its feedback and mode, and the update by whether the shift gives 0. -/
theorem lfsrUpdateFollowsItsRule : Obligations.LfsrUpdateFollowsItsRule := by
  refine fun m15 x => ⟨lfsrShift_toNat_of_eq m15, fun h hmode => ?fifteen, fun h hmode => ?seven,
    fun hkept => if_neg hkept, fun hzero => if_pos hzero⟩
  case fifteen => rw [hmode, lfsrShift_toNat_fifteen h]
  case seven => rw [hmode, lfsrShift_toNat_seven h]

/-! ### Noise channel (R193) -/

/-- The period with the two numbers of 00_scope.md R9 in place. -/
theorem noisePeriod_eq (c : Config) (freq : BitVec 4) :
    noisePeriod c freq = max 1 (((c.noiseDiv[freq.toNat]'freq.isLt) * 44100) / 4000000) := rfl

theorem noiseStep_active (c : Config) {n : Noise} (h : n.en = true) :
    noiseStep c n =
      ((if (noiseAdvance c n).left = true then noiseOut (noiseAdvance c n) else 0,
        if (noiseAdvance c n).right = true then noiseOut (noiseAdvance c n) else 0), noiseAdvance c n) := by
  rw [noiseStep, if_pos h]

theorem noiseAdvance_inside {c : Config} {n : Noise} (h : n.pos + 1 < noisePeriod c n.freq) :
    noiseAdvance c n = { n with pos := n.pos + 1 } := by
  rw [noiseAdvance, if_neg (Nat.not_le.2 h)]

theorem noiseAdvance_reaches {c : Config} {n : Noise} (h : noisePeriod c n.freq ≤ n.pos + 1) :
    noiseAdvance c n = noiseUpdate n := by
  rw [noiseAdvance, if_pos h]

/-- The low bit of the LFSR as a number. -/
theorem noiseOut_eq (n : Noise) : noiseOut n = if n.en = true ∧ n.lfsr.toNat % 2 = 1 then n.vol.toNat else 0 := by
  have hlow : n.lfsr.getLsbD 0 = true ↔ n.lfsr.toNat % 2 = 1 := by
    rw [BitVec.getLsbD, Nat.testBit_zero, decide_eq_true_iff]
  simp only [noiseOut, Bool.and_eq_true, hlow]

theorem noiseUpdate_continuous {n : Noise} (hcont : n.cont = true) :
    noiseUpdate n = { n with pos := 0, lfsr := lfsrUpdate n.m15 n.lfsr } := by
  rw [noiseUpdate, if_pos hcont]

/-- The length after one count down, not below 0. -/
def lengthCountedDown (len : Byte) : Byte := if len = 0 then len else len - 1

theorem lengthCountedDown_eq_ofNat (len : Byte) :
    lengthCountedDown len = if len = 0 then len else BitVec.ofNat 8 (len.toNat - 1) := by
  rw [lengthCountedDown]
  split
  · rfl
  · bv_omega

/-- The count down leaves something exactly when the length is above 1. -/
theorem lengthCountedDown_ne_zero_iff (len : Byte) : lengthCountedDown len ≠ 0 ↔ 1 < len.toNat := by
  rw [lengthCountedDown]
  split
  · bv_omega
  · bv_omega

theorem noiseUpdate_gated {n : Noise} (hcont : ¬ n.cont = true) :
    noiseUpdate n = { n with
      pos := 0, lfsr := lfsrUpdate n.m15 n.lfsr, len := lengthCountedDown n.len,
      en := n.en && !decide (lengthCountedDown n.len = 0) } := by
  rw [noiseUpdate, if_neg hcont]
  rfl

/-- An LFSR update of an enabled channel, with the length and the enabled flag as numbers. -/
theorem noiseUpdate_active {n : Noise} (he : n.en = true) :
    noiseUpdate n = { n with
      pos := 0, lfsr := lfsrUpdate n.m15 n.lfsr,
      len := if n.cont = true ∨ n.len = 0 then n.len else BitVec.ofNat 8 (n.len.toNat - 1),
      en := if n.cont = true ∨ 1 < n.len.toNat then true else false } := by
  by_cases hcont : n.cont = true
  case pos => rw [noiseUpdate_continuous hcont, if_pos (.inl hcont), if_pos (.inl hcont), ← he]
  case neg =>
    have hlen : (if n.cont = true ∨ n.len = 0 then n.len else BitVec.ofNat 8 (n.len.toNat - 1)) =
        lengthCountedDown n.len := by
      simp only [lengthCountedDown_eq_ofNat, hcont, Bool.false_eq_true, false_or]
    have hen : (if n.cont = true ∨ 1 < n.len.toNat then true else false) =
        (n.en && !decide (lengthCountedDown n.len = 0)) := by
      simp [hcont, he, ← lengthCountedDown_ne_zero_iff]
    rw [noiseUpdate_gated hcont, hlen, hen]

/-- Settles O43: a disabled channel, or an enabled one, whose advance stays below the period or reaches it. -/
theorem noiseStepFollowsItsRule : Obligations.NoiseStepFollowsItsRule := by
  refine fun c n => ⟨noiseStep_inert c, fun he => ?active⟩
  rw [← noisePeriod_eq, noiseStep_active c he]
  refine ⟨noiseAdvance_inside, fun hreached => ?reaches, ?output⟩
  case reaches => rw [noiseAdvance_reaches hreached, noiseUpdate_active he]
  case output => simp only [noiseOut_eq]

/-! ### PCM channel, case by case (R196) -/

section
variable {s : State}

theorem dmaStep_stopped (htrig : s.pcm.trig = false) : dmaStep s = .done 0 false s := by
  rw [dmaStep, if_pos htrig]

variable (htrig : ¬ s.pcm.trig = false)
include htrig

theorem dmaStep_ends (hend : dmaTotal s.pcm.len ≤ s.pcm.played) :
    dmaStep s = .done 0 false (s.withPcm { s.pcm with trig := false }) := by
  rw [dmaStep, if_neg htrig, if_pos hend]

variable (hplays : ¬ dmaTotal s.pcm.len ≤ s.pcm.played)
include hplays

theorem dmaStep_high (hsel : s.pcm.sel = false) :
    dmaStep s = .done (pcmHighNibble s.pcm.byte) false
      (s.withPcm { s.pcm with sel := true, played := s.pcm.played + 1 }) := by
  rw [dmaStep, if_neg htrig, if_neg hplays, if_pos hsel]

variable (hsel : ¬ s.pcm.sel = false)
include hsel

/-- The fetch does not look at the PCM channel, so it is the fetch of the state before the cursor moves. -/
theorem dmaStep_low_of_fetch_done {b : Byte} {d : Bool} {t : State}
    (hfetch : busRead s (s.pcm.cur + 1) = .done b d t) :
    dmaStep s = .done (pcmLowNibble s.pcm.byte) d
      (t.withPcm { s.pcm with sel := false, cur := s.pcm.cur + 1, byte := b, played := s.pcm.played + 1 }) := by
  rw [dmaStep, if_neg htrig, if_neg hplays, if_neg hsel, busRead_withPcm, hfetch]
  rfl

theorem dmaStep_low_of_fetch_fault {f : Fault} (hfetch : busRead s (s.pcm.cur + 1) = .fault f) :
    dmaStep s = .fault f := by
  rw [dmaStep, if_neg htrig, if_neg hplays, if_neg hsel, busRead_withPcm, hfetch]

end

/-! ### SAMPLE (R198, R199) -/

theorem exec_sample (s : State) : exec .sample s = .next (sampleState s) := rfl

/-- The PCM step answers, so SAMPLE returns the mix. -/
theorem sampleState_of_done {s t : State} {d : Nat} {diag : Bool} (h : dmaStep (stepGenerators s) = .done d diag t) :
    sampleState s = t.withOut (.sample
      (BitVec.ofNat 16 (mix (squareStep s.sq0).1 (squareStep s.sq1).1 (noiseStep s.cfg s.noise).1.1
        (noiseStep s.cfg s.noise).1.2 d)) diag) := by
  rw [sampleState, h]

/-- The PCM fetch faults, so SAMPLE reports the fault and nothing else. -/
theorem sampleState_of_fault {s : State} {f : Fault} (h : dmaStep (stepGenerators s) = .fault f) :
    sampleState s = s.withOut (.faulted f) := by
  rw [sampleState, h]
  rfl

/-- The contribution of the PCM channel is 0 or a nibble. -/
theorem dmaStep_le {s t : State} {d : Nat} {diag : Bool} (h : dmaStep s = .done d diag t) : d ≤ 15 := by
  obtain heq | heq | ⟨_, heq⟩ | ⟨_, _, _, heq⟩ | ⟨_, _, heq⟩ | ⟨_, _, heq⟩ := dmaStep_cases s
  · rw [heq] at h; cases h; exact Nat.zero_le 15
  · rw [heq] at h; cases h; exact Nat.zero_le 15
  · rw [heq] at h; cases h; exact pcmHighNibble_le _
  · rw [heq] at h; cases h; exact pcmLowNibble_le _
  · rw [heq] at h; cases h; exact pcmLowNibble_le _
  · rw [heq] at h; cases h

/-- Four contributions of at most 15 and the PCM nibble mix to at most 60 units of 256. -/
theorem mix_range {s0 s1 nl nr d : Nat} (h0 : s0 ≤ 15) (h1 : s1 ≤ 15) (hl : nl ≤ 15) (hr : nr ≤ 15) (hd : d ≤ 15) :
    mix s0 s1 nl nr d % 256 = 0 ∧ mix s0 s1 nl nr d ≤ 15360 := by
  unfold mix
  omega

/-- A number below half the range of a word is that number, unsigned and signed. -/
theorem ofNat_sixteen_of_lt {m : Nat} (h : m < 32768) :
    (BitVec.ofNat 16 m).toNat = m ∧ (BitVec.ofNat 16 m).toInt = ((BitVec.ofNat 16 m).toNat : Int) := by
  have htoNat : (BitVec.ofNat 16 m).toNat = m := by
    rw [BitVec.toNat_ofNat, Nat.mod_eq_of_lt (Nat.lt_trans h (by decide))]
  refine ⟨htoNat, BitVec.toInt_eq_toNat_of_lt ?_⟩
  rw [htoNat]
  omega

/-- Settles O49: the sample returned is the mix of contributions in range; a fault returns no sample. -/
theorem sampleIsAMultipleOf256UpTo15360 : Obligations.SampleIsAMultipleOf256UpTo15360 := by
  refine fun s => ⟨sampleState s, exec_sample s, fun v diag hout => ?_⟩
  cases hdma : dmaStep (stepGenerators s) with
  | done d g t =>
    rw [sampleState_of_done hdma, State.withOut_out] at hout
    cases hout
    obtain ⟨hleft, hright⟩ := noiseStep_le s.cfg s.noise
    obtain ⟨hmultiple, hle⟩ := mix_range (squareStep_le s.sq0) (squareStep_le s.sq1) hleft hright (dmaStep_le hdma)
    obtain ⟨htoNat, htoInt⟩ := ofNat_sixteen_of_lt (Nat.lt_of_le_of_lt hle (by decide))
    refine ⟨?multiple, htoInt, ?bound⟩
    case multiple => rw [htoNat]; exact hmultiple
    case bound => rw [htoNat]; exact hle
  | fault f =>
    rw [sampleState_of_fault hdma, State.withOut_out] at hout
    cases hout

end Sys2Proof.Machine
end

section
/-! PROOFS. The PCM fields no rule reads (44_sound_sample.md R197). Each instruction is run beside itself on the erased
state, where those fields are zero: the two runs agree up to erasure, so two states with one erasure agree. An operation
that fetches commutes with erasure because the fetch does not look at the PCM channel. -/

namespace Sys2Proof.Machine

/-! ### The operations that branch -/

/-- What an operation answers, with those fields zero in the state after. -/
def Answer.eraseUnread {α : Type} : Answer α → Answer α
  | .done v d t => .done v d t.eraseUnread
  | .fault f => .fault f

section
variable (s : State)

@[simp] theorem State.eraseUnread_eraseUnread : s.eraseUnread.eraseUnread = s.eraseUnread := rfl

@[simp] theorem State.eraseUnread_out : s.eraseUnread.out = s.out := rfl

theorem romAt_eraseUnread (i : Nat) : romAt s.eraseUnread i = (romAt s i).eraseUnread := by
  obtain ⟨hinside, hread⟩ | ⟨hbeyond, hread⟩ := romAt_cases s i
  · rw [hread]; exact romAt_inside hinside
  · rw [hread]; exact romAt_beyond hbeyond

/-- A fetch passes the four fields on. -/
theorem busRead_eraseUnread (a : Address) : busRead s.eraseUnread a = (busRead s a).eraseUnread := by
  obtain ⟨b, d, hread⟩ | ⟨b, hread⟩ | ⟨i, _, hread⟩ := busRead_cases s a
  · rw [State.eraseUnread, busRead_withPcm, hread]; rfl
  · rw [State.eraseUnread, busRead_withPcm, hread]; rfl
  · rw [State.eraseUnread, busRead_withPcm, hread]; rfl

theorem finishRead_eraseUnread (r : Answer Byte) :
    finishRead s.eraseUnread r.eraseUnread = (finishRead s r).eraseUnread := by
  cases r <;> rfl

theorem finishFetchingWrite_eraseUnread (r : Answer Unit) :
    finishFetchingWrite s.eraseUnread r.eraseUnread = (finishFetchingWrite s r).eraseUnread := by
  cases r <;> rfl

theorem dmaStep_eraseUnread : dmaStep s.eraseUnread = (dmaStep s).eraseUnread := by
  by_cases htrig : s.pcm.trig = false
  case pos => rw [dmaStep_stopped htrig, dmaStep_stopped (s := s.eraseUnread) htrig]; rfl
  by_cases hend : dmaTotal s.pcm.len ≤ s.pcm.played
  case pos => rw [dmaStep_ends htrig hend, dmaStep_ends (s := s.eraseUnread) htrig hend]; rfl
  by_cases hsel : s.pcm.sel = false
  case pos => rw [dmaStep_high htrig hend hsel, dmaStep_high (s := s.eraseUnread) htrig hend hsel]; rfl
  have herased : busRead s.eraseUnread (s.pcm.cur + 1) = (busRead s (s.pcm.cur + 1)).eraseUnread :=
    busRead_eraseUnread s _
  cases hfetch : busRead s (s.pcm.cur + 1) with
  | done b d t =>
    rw [hfetch] at herased
    rw [dmaStep_low_of_fetch_done htrig hend hsel hfetch,
      dmaStep_low_of_fetch_done (s := s.eraseUnread) htrig hend hsel herased]
    rfl
  | fault f =>
    rw [hfetch] at herased
    rw [dmaStep_low_of_fetch_fault htrig hend hsel hfetch,
      dmaStep_low_of_fetch_fault (s := s.eraseUnread) htrig hend hsel herased]
    rfl

theorem pcmWriteR4_eraseUnread (v : Byte) : pcmWriteR4 s.eraseUnread v = (pcmWriteR4 s v).eraseUnread := by
  by_cases hv : v.toNat < 128
  case pos => rw [pcmWriteR4_of_no_trigger hv, pcmWriteR4_of_no_trigger hv]; rfl
  have hbit : 128 ≤ v.toNat := Nat.le_of_not_lt hv
  by_cases hstale : s.pcm.trig = true ∧ 0 < s.pcm.played
  case pos =>
    obtain ⟨htrig, hplayed⟩ := hstale
    rw [pcmWriteR4_of_retrigger hbit htrig hplayed, pcmWriteR4_of_retrigger (s := s.eraseUnread) hbit htrig hplayed]
    rfl
  have herased : busRead s.eraseUnread (pcmStart s.pcm) = (busRead s (pcmStart s.pcm)).eraseUnread :=
    busRead_eraseUnread s _
  cases hfetch : busRead s (pcmStart s.pcm) with
  | done b d t =>
    rw [hfetch] at herased
    rw [pcmWriteR4_of_fetch_done hbit hstale hfetch,
      pcmWriteR4_of_fetch_done (s := s.eraseUnread) hbit hstale herased]
    rfl
  | fault f =>
    rw [hfetch] at herased
    rw [pcmWriteR4_of_fetch_fault hbit hstale hfetch,
      pcmWriteR4_of_fetch_fault (s := s.eraseUnread) hbit hstale herased]
    rfl

theorem stepGenerators_eraseUnread : stepGenerators s.eraseUnread = (stepGenerators s).eraseUnread := rfl

theorem sampleState_eraseUnread : sampleState s.eraseUnread = (sampleState s).eraseUnread := by
  have hdma : dmaStep (stepGenerators s.eraseUnread) = (dmaStep (stepGenerators s)).eraseUnread := by
    rw [stepGenerators_eraseUnread, dmaStep_eraseUnread]
  cases h : dmaStep (stepGenerators s) with
  | done d diag t =>
    rw [h] at hdma
    rw [sampleState_of_done h, sampleState_of_done hdma]
    rfl
  | fault f =>
    rw [h] at hdma
    rw [sampleState_of_fault h, sampleState_of_fault hdma]
    rfl

theorem writeTimer_eraseUnread (v : Byte) : writeTimer s.eraseUnread v = (writeTimer s v).eraseUnread := by
  by_cases hfires : v = 0 ∧ s.timer.en = true
  · obtain ⟨hzero, hen⟩ := hfires
    rw [writeTimer_fires hzero hen, writeTimer_fires hzero (s := s.eraseUnread) hen]
    rfl
  · rw [writeTimer_quiet hfires, writeTimer_quiet (s := s.eraseUnread) hfires]
    rfl

end

/-! ### Every instruction -/

/-- Beside each instruction runs the same instruction from the erased state, and the states after have one erasure. -/
theorem exec_eraseUnread (i : Instr) (s : State) : ∃ t u, exec i s = .next t ∧ exec i s.eraseUnread = .next u ∧
    t.eraseUnread = u.eraseUnread := by
  cases i
  case rdRomBank a =>
    refine ⟨_, _, exec_rdRomBank s a, exec_rdRomBank s.eraseUnread a, ?_⟩
    rw [romAt_eraseUnread, finishRead_eraseUnread, State.eraseUnread_eraseUnread]
    rfl
  case rdRomFixed a => exact ⟨_, _, exec_rdRomFixed_byte s a, exec_rdRomFixed_byte s.eraseUnread a, rfl⟩
  case wrTimer v =>
    refine ⟨_, _, exec_wrTimer s v, exec_wrTimer s.eraseUnread v, ?_⟩
    rw [writeTimer_eraseUnread]
    rfl
  case wrPcmR4 v =>
    refine ⟨_, _, exec_wrPcmR4 s v, exec_wrPcmR4 s.eraseUnread v, ?_⟩
    rw [pcmWriteR4_eraseUnread, finishFetchingWrite_eraseUnread, State.eraseUnread_eraseUnread]
  case tick =>
    by_cases hfires : s.timer.en = true ∧ s.timer.cnt = 0
    · obtain ⟨hen, hcnt⟩ := hfires
      exact ⟨_, _, exec_tick_fires hen hcnt, exec_tick_fires (s := s.eraseUnread) hen hcnt, rfl⟩
    · exact ⟨_, _, exec_tick_counts hfires, exec_tick_counts (s := s.eraseUnread) hfires, rfl⟩
  case sample =>
    refine ⟨_, _, exec_sample s, exec_sample s.eraseUnread, ?_⟩
    rw [sampleState_eraseUnread, State.eraseUnread_eraseUnread]
  -- The other rows do not branch: they set named fields to values in which the four fields play no part.
  all_goals exact ⟨_, _, rfl, rfl, rfl⟩

/-- Settles O50: two states with one erasure run beside one and the same erased state; the result is outside the PCM
channel, so equal erasures have equal results. -/
theorem unreadPcmFieldsInfluenceNothing : Obligations.UnreadPcmFieldsInfluenceNothing := by
  intro i s s' h
  obtain ⟨t, u, ht, hu, htu⟩ := exec_eraseUnread i s
  obtain ⟨t', u', ht', hu', htu'⟩ := exec_eraseUnread i s'
  have hsame : u = u' := by
    rw [h, hu'] at hu
    cases hu
    rfl
  have herased : t.eraseUnread = t'.eraseUnread := by rw [htu, htu', hsame]
  have hout : t.out = t'.out := by rw [← State.eraseUnread_out t, herased, State.eraseUnread_out]
  exact ⟨t, t', ht, ht', hout, herased⟩

end Sys2Proof.Machine
end

section
/-! PROOFS. The diagnostic (60_exceptions.md R213). Every answer carries one bit, which its finisher passes on unchanged.
Two rows fetch, SAMPLE and the trigger write: when they fetch, their bit is that of the bus read, and otherwise it is
clear. The bit of a bus read is set exactly where the address reads as unmapped. Every other row has a constant bit. -/

namespace Sys2Proof

/-- A READ of `a` is a row that reaches no store and no handler. -/
def ReadsAsUnmapped (c : Config) (a : Address) : Prop := ∃ j, ReadIs c a j ∧ j.isUnmapped = true

end Sys2Proof

namespace Sys2Proof.Machine

/-! ### The diagnostic bit of an answer -/

/-- The diagnostic bit of an answer; a fault reports none (60_exceptions.md R210). -/
def Answer.diag {α : Type} : Answer α → Bool
  | .done _ d _ => d
  | .fault _ => false

section
variable {α : Type} (s : State)

@[simp] theorem Answer.diag_done (x : α) (d : Bool) (t : State) : (Answer.done x d t).diag = d := rfl

@[simp] theorem Answer.diag_fault (f : Fault) : (Answer.fault f : Answer α).diag = false := rfl

theorem finishRead_out_diag (r : Answer Byte) : (finishRead s r).out.diag = r.diag := by
  cases r <;> rfl

theorem finishFetchingWrite_out_diag (r : Answer Unit) : (finishFetchingWrite s r).out.diag = r.diag := by
  cases r <;> rfl

/-- SAMPLE reports the bit of its PCM step (44_sound_sample.md R198). -/
theorem sampleState_out_diag : (sampleState s).out.diag = (dmaStep (stepGenerators s)).diag := by
  cases h : dmaStep (stepGenerators s) with
  | done d diag t => rw [sampleState_of_done h]; rfl
  | fault f => rw [sampleState_of_fault h]; rfl

/-! ### A read, and the two operations that fetch -/

/-- A ROM read sets no diagnostic, inside the ROM or beyond it (20_memory.md R68). -/
theorem romAt_diag (i : Nat) : (romAt s i).diag = false := by
  obtain ⟨_, hread⟩ | ⟨_, hread⟩ := romAt_cases s i <;> rw [hread] <;> rfl

/-- An address that reads as unmapped never faults, so the bit is set there on every outcome of the read. -/
theorem busRead_diag_iff (a : Address) : (busRead s a).diag = true ↔ ReadsAsUnmapped s.cfg a := by
  cases hread : busRead s a with
  | done b d t => exact busRead_diag hread
  | fault f =>
    refine iff_of_false Bool.false_ne_true fun hunmapped => ?_
    obtain ⟨b, t, hdone⟩ := busRead_unmapped hunmapped
    rw [hdone] at hread
    cases hread

end

/-- A step of the PCM channel fetches: a playback runs below its total and stands at the low nibble (R196). -/
def Pcm.StepFetches (d : Pcm) : Prop := d.trig = true ∧ d.sel = true ∧ d.played < dmaTotal d.len

/-- A trigger write fetches: the trigger bit is 1 and the trigger is fresh (43_sound_registers.md R178). -/
def Pcm.TriggerFetches (d : Pcm) (v : Byte) : Prop := 128 ≤ v.toNat ∧ ¬ (d.trig = true ∧ 0 < d.played)

section
variable {s : State} {v : Byte}

theorem dmaStep_diag_of_fetch (h : s.pcm.StepFetches) : (dmaStep s).diag = (busRead s (s.pcm.cur + 1)).diag := by
  obtain ⟨htrig, hsel, hplays⟩ := h
  have htrig' : ¬ s.pcm.trig = false := Bool.not_eq_false _ ▸ htrig
  have hsel' : ¬ s.pcm.sel = false := Bool.not_eq_false _ ▸ hsel
  cases hfetch : busRead s (s.pcm.cur + 1) with
  | done b d t => rw [dmaStep_low_of_fetch_done htrig' (Nat.not_le.2 hplays) hsel' hfetch]; rfl
  | fault f => rw [dmaStep_low_of_fetch_fault htrig' (Nat.not_le.2 hplays) hsel' hfetch]; rfl

/-- A step that does not fetch is stopped, ends the playback, or emits a high nibble. -/
theorem dmaStep_diag_of_no_fetch (h : ¬ s.pcm.StepFetches) : (dmaStep s).diag = false := by
  by_cases htrig : s.pcm.trig = false
  case pos => rw [dmaStep_stopped htrig]; rfl
  by_cases hend : dmaTotal s.pcm.len ≤ s.pcm.played
  case pos => rw [dmaStep_ends htrig hend]; rfl
  by_cases hsel : s.pcm.sel = false
  case pos => rw [dmaStep_high htrig hend hsel]; rfl
  exact absurd ⟨Bool.not_eq_false _ ▸ htrig, Bool.not_eq_false _ ▸ hsel, Nat.not_le.1 hend⟩ h

theorem pcmWriteR4_diag_of_fetch (h : s.pcm.TriggerFetches v) :
    (pcmWriteR4 s v).diag = (busRead s (pcmStart s.pcm)).diag := by
  obtain ⟨hv, hfresh⟩ := h
  cases hfetch : busRead s (pcmStart s.pcm) with
  | done b d t => rw [pcmWriteR4_of_fetch_done hv hfresh hfetch]; rfl
  | fault f => rw [pcmWriteR4_of_fetch_fault hv hfresh hfetch]; rfl

/-- A trigger write that does not fetch has its trigger bit clear, or comes inside a playback. -/
theorem pcmWriteR4_diag_of_no_fetch (h : ¬ s.pcm.TriggerFetches v) : (pcmWriteR4 s v).diag = false := by
  by_cases hv : v.toNat < 128
  case pos => rw [pcmWriteR4_of_no_trigger hv]; rfl
  by_cases hstale : s.pcm.trig = true ∧ 0 < s.pcm.played
  case pos =>
    obtain ⟨htrig, hplayed⟩ := hstale
    rw [pcmWriteR4_of_retrigger (Nat.le_of_not_lt hv) htrig hplayed]
    rfl
  exact absurd ⟨Nat.le_of_not_lt hv, hstale⟩ h

end

/-! ### Every instruction -/

section
variable (s : State)

/-- The generators change neither the PCM channel nor what the bus reads, so the condition is on the state before. -/
theorem sampleState_out_diag_iff :
    (sampleState s).out.diag = true ↔ s.pcm.StepFetches ∧ ReadsAsUnmapped s.cfg (s.pcm.cur + 1) := by
  rw [sampleState_out_diag]
  by_cases hfetches : s.pcm.StepFetches
  · rw [dmaStep_diag_of_fetch (s := stepGenerators s) hfetches, busRead_diag_iff]
    exact (and_iff_right hfetches).symm
  · rw [dmaStep_diag_of_no_fetch (s := stepGenerators s) hfetches]
    exact iff_of_false Bool.false_ne_true fun h => hfetches h.1

theorem triggerWrite_out_diag_iff (v : Byte) :
    (finishFetchingWrite s (pcmWriteR4 s v)).out.diag = true ↔
      s.pcm.TriggerFetches v ∧ ReadsAsUnmapped s.cfg (pcmStart s.pcm) := by
  rw [finishFetchingWrite_out_diag]
  by_cases hfetches : s.pcm.TriggerFetches v
  · rw [pcmWriteR4_diag_of_fetch hfetches, busRead_diag_iff]
    exact (and_iff_right hfetches).symm
  · rw [pcmWriteR4_diag_of_no_fetch hfetches]
    exact iff_of_false Bool.false_ne_true fun h => hfetches h.1

end

/-- Of a row that never fetches for the PCM channel the diagnostic is fixed by the row. -/
theorem exec_out_diag_of_not_fetching {i : Instr} {s t : State} (h : exec i s = .next t) (hsample : i ≠ .sample)
    (htrigger : ∀ v, i ≠ .wrPcmR4 v) : t.out.diag = i.isUnmapped := by
  cases i
  case rdRomBank a => cases h; exact (finishRead_out_diag s _).trans (romAt_diag s _)
  case rdRomFixed a => cases h; exact (finishRead_out_diag s _).trans (romAt_diag s _)
  case sample => exact absurd rfl hsample
  case wrPcmR4 v => exact absurd rfl (htrigger v)
  -- The other rows set the result to one of a fixed form, whatever the state.
  all_goals cases h; rfl

/-- Settles O54: SAMPLE and the trigger write by their conditions for a fetch, every other row by its constant bit. -/
theorem diagnosticMarksUnmappedAccesses : Obligations.DiagnosticMarksUnmappedAccesses := by
  intro i s t h
  by_cases hsample : i = .sample
  case pos =>
    subst hsample
    cases h
    simpa [Instr.isUnmapped, Pcm.StepFetches, ReadsAsUnmapped, dmaTotal, dmaBytes, and_assoc]
      using sampleState_out_diag_iff s
  by_cases htrigger : ∃ v, i = .wrPcmR4 v
  case pos =>
    obtain ⟨v, rfl⟩ := htrigger
    cases h
    simpa [Instr.isUnmapped, Pcm.TriggerFetches, ReadsAsUnmapped, pcmStart, and_assoc]
      using triggerWrite_out_diag_iff s v
  rw [exec_out_diag_of_not_fetching h hsample fun v hv => htrigger ⟨v, hv⟩]
  refine ⟨Or.inl, fun hdiag => ?_⟩
  obtain hunmapped | ⟨hi, _⟩ | ⟨v, hi, _⟩ := hdiag
  · exact hunmapped
  · exact absurd hi hsample
  · exact absurd ⟨v, hi⟩ htrigger

end Sys2Proof.Machine
end

section
/-! PROOFS. RESET and the operations after it (70_reset_and_hazards.md R230, R231). RESET's element values are read off
`resetState`; each operation's answer after it follows from the few of them that the operation looks at: the generators are
disabled, the playback is stopped, the latch is clear, `BANK` is 0. Those answers are said for every such state. -/

namespace Sys2Proof

theorem kindIs_reset (c : Config) : KindIs c 0b110 .reset :=
  (kindIs_iff (by decide) (by decide) _).2 (decode_word c .reset)

end Sys2Proof

namespace Sys2Proof.Machine

/-! ### The elements after RESET (`cfg` and `timer` stand with the timer's rules) -/

section
variable (s : State)

@[simp] theorem resetState_ram : (resetState s).ram = [] := rfl

@[simp] theorem resetState_vram : (resetState s).vram = [] := rfl

@[simp] theorem resetState_lcd :
    (resetState s).lcd = { hsize := 0, vsize := 0, xscroll := 0, yscroll := 0 } := rfl

@[simp] theorem resetState_bank : (resetState s).bank = 0 := rfl

@[simp] theorem resetState_nmiEn : (resetState s).nmiEn = false := rfl

@[simp] theorem resetState_irqPend : (resetState s).irqPend = false := rfl

@[simp] theorem resetState_sq0 : (resetState s).sq0 = Square.reset := rfl

@[simp] theorem resetState_sq1 : (resetState s).sq1 = Square.reset := rfl

@[simp] theorem resetState_noise : (resetState s).noise = Noise.reset := rfl

@[simp] theorem resetState_pcm : (resetState s).pcm = Pcm.reset := rfl

@[simp] theorem resetState_keys : (resetState s).keys = s.keys := rfl

@[simp] theorem resetState_pending : (resetState s).pending = s.pending := rfl

@[simp] theorem resetState_out : (resetState s).out = .none := rfl

/-- Nothing is listed after RESET, so every byte is the open initial one (R232). -/
theorem ramByte_resetState (i : MemIndex) : ramByte (resetState s) i = Config.initRam i :=
  ramByte_of_unlisted (by rw [resetState_ram, Memory.read_nil])

theorem vramByte_resetState (i : MemIndex) : vramByte (resetState s) i = Config.initVram i :=
  vramByte_of_unlisted (by rw [resetState_vram, Memory.read_nil])

end

/-! ### What an operation answers in a quiet state -/

/-- A cleared register file reads 0 at every register. -/
theorem lcdRead_zero (i : BitVec 2) : lcdRead { hsize := 0, vsize := 0, xscroll := 0, yscroll := 0 } i = 0 := by
  simp only [lcdRead, ite_self]

/-- Bank 0 is the first window of the ROM, which every ROM has (00_scope.md R8). -/
theorem romBankIndex_zero (a : BitVec 14) : romBankIndex 0 a = a.toNat := by
  simp [romBankIndex]

theorem toNat_lt_romSize (r : Rom) (a : BitVec 14) : a.toNat < r.size :=
  Nat.lt_of_lt_of_le a.isLt (Nat.le_add_left 16384 r.extra)

/-- Five zero contributions mix to silence. -/
theorem mix_zero : BitVec.ofNat 16 (mix 0 0 0 0 0) = 0 := by decide

section
variable {s : State}

/-- The switchable window in bank 0 never faults. -/
theorem exec_rdRomBank_bankZero (hbank : s.bank = 0) (a : BitVec 14) :
    exec (.rdRomBank a) s = .next (s.withOut (.byte (romByte s.cfg.rom a.toNat) false)) := by
  rw [exec_rdRomBank, hbank, romBankIndex_zero, romAt_inside (toNat_lt_romSize _ a), finishRead_done]

/-- TAKEIRQ of a clear latch changes nothing. -/
theorem exec_takeIrq_clear (hlatch : s.irqPend = false) : exec .takeIrq s = .next (s.withOut (.irq false)) := by
  rw [exec_takeIrq, hlatch, ← hlatch, State.withIrqPend_self]

/-- A TICK of a disabled timer with the fast divisor counts. -/
theorem exec_tick_disabled_fast (hen : s.timer.en = false) (hfast : s.timer.slow = false) :
    exec .tick s = .next ((s.withTimer { s.timer with cnt := s.timer.cnt - 1 }).withOut .none) := by
  rw [exec_tick_counts (fun ⟨hen', _⟩ => Bool.false_ne_true (hen.symm.trans hen')), timerCount_fast hfast]

section
variable (h0 : s.sq0.en = false) (h1 : s.sq1.en = false) (hn : s.noise.en = false)
include h0 h1 hn

/-- Disabled generators are inert (44_sound_sample.md R190, R193). -/
theorem stepGenerators_disabled : stepGenerators s = s := by
  rw [stepGenerators, squareStep_inert (.inl h0), squareStep_inert (.inl h1), noiseStep_inert _ hn,
    State.withSq0_self, State.withSq1_self, State.withNoise_self]

/-- With every generator disabled and no playback, SAMPLE returns silence and changes nothing (R198). -/
theorem exec_sample_silent (htrig : s.pcm.trig = false) : exec .sample s = .next (s.withOut (.sample 0 false)) := by
  have hdma : dmaStep (stepGenerators s) = .done 0 false s := by
    rw [stepGenerators_disabled h0 h1 hn, dmaStep_stopped htrig]
  rw [exec_sample, sampleState_of_done hdma, squareStep_inert (.inl h0), squareStep_inert (.inl h1),
    noiseStep_inert _ hn, mix_zero]

end

end

/-! ### What each operation answers after RESET -/

section
variable (s : State)

/-- The counter stands at 0, so the first TICK wraps it; the timer is disabled, so it does not fire. -/
theorem exec_tick_resetState : exec .tick (resetState s) =
    .next ((resetState s).withTimer { en := false, slow := false, cnt := 0xFF, acc := 0 }) :=
  exec_tick_disabled_fast (s := resetState s) rfl rfl

theorem exec_rdLcd_resetState (a : BitVec 3) :
    exec (.rdLcd a) (resetState s) = .next ((resetState s).withOut (.byte 0x00 false)) := by
  rw [exec_rdLcd, resetState_lcd, lcdRead_zero]

end

/-- Settles O55: the row by its kind, the elements of `resetState`, and each operation after it by its answer in the
quiet states. -/
theorem resetGivesEveryElementItsValue : Obligations.ResetGivesEveryElementItsValue := by
  intro s
  refine ⟨kindIs_reset s.cfg, resetState s, exec_reset s, resetState_cfg s, resetState_keys s, resetState_pending s,
    resetState_out s, fun a => ⟨ramByte_resetState s a, vramByte_resetState s a⟩, resetState_ram s, resetState_vram s,
    resetState_lcd s, resetState_bank s, resetState_nmiEn s, resetState_timer s, resetState_irqPend s,
    resetState_sq0 s, resetState_sq1 s, resetState_noise s, resetState_pcm s, ?frame, ?takeIrq, ?sample, ?timer,
    ?lcd, ?romBank, ?tick⟩
  case frame => exact exec_frame (resetState s)
  case takeIrq => exact exec_takeIrq_clear (resetState_irqPend s)
  case sample => exact exec_sample_silent (s := resetState s) rfl rfl rfl rfl
  case timer => exact exec_rdTimer (resetState s)
  case lcd => exact exec_rdLcd_resetState s
  case romBank => exact exec_rdRomBank_bankZero (resetState_bank s)
  case tick => exact exec_tick_resetState s

end Sys2Proof.Machine
end

section
/-! PROOFS. The encoding (30_encoding.md R90 to R95). Decoding has two stages, and each is inverted by itself: a word to the
operation it writes down, whose own word is the canonical one, and an operation to its row, which stands for that
operation under every register map. The other way round an instruction is found again at the address its row is built
from, by the lemmas of the regions and of the register map. -/

namespace Sys2Proof

/-! ### A word and the operation it writes down (R90 to R92) -/

/-- The kinds that use at most the address field. -/
theorem kind_cases : ∀ k : BitVec 3, k ≠ 0b001#3 → k ≠ 0b111#3 →
    k = 0b000#3 ∨ k = 0b010#3 ∨ k = 0b011#3 ∨ k = 0b100#3 ∨ k = 0b101#3 ∨ k = 0b110#3 := by
  decide

/-- A word of any kind but the reserved one writes down an operation, whose own word is the canonical word. -/
theorem decodeOperation_of_kind {w : TransactionWord} (h : wordKind w ≠ 0b111#3) :
    ∃ o, decodeOperation w = .ok o ∧ o.word = canonicalWord w := by
  by_cases hk : wordKind w = 0b001#3
  case pos =>
    refine ⟨.write (wordAddr w) (wordData w), by simp [decodeOperation, hk], ?canonical⟩
    have hfields := makeWord_fields w
    rw [hk] at hfields
    simpa [canonicalWord, hk, Operation.word] using hfields
  case neg =>
    obtain hk | hk | hk | hk | hk | hk := kind_cases _ hk h
    all_goals simp [decodeOperation, canonicalWord, Operation.word, hk]

theorem decodeOperation_reservedKind {w : TransactionWord} (h : wordKind w = 0b111#3) :
    decodeOperation w = .error .reservedKind := by
  simp [decodeOperation, h]

theorem decode_reservedKind (c : Config) {w : TransactionWord} (h : wordKind w = 0b111#3) :
    decode c w = .error .reservedKind := by
  rw [decode, decodeOperation_reservedKind h]

/-- A word of any other kind decodes to the row of an operation whose own word is the canonical word. -/
theorem decode_of_kind (c : Config) {w : TransactionWord} (h : wordKind w ≠ 0b111#3) :
    ∃ o, decode c w = .ok (decodeRow c o) ∧ o.word = canonicalWord w := by
  obtain ⟨o, hdecode, hword⟩ := decodeOperation_of_kind h
  exact ⟨o, by rw [decode, hdecode], hword⟩

/-- What the decoder accepts is the row of an operation whose own word is the canonical word. -/
theorem decode_ok {c : Config} {w : TransactionWord} {i : Instr} (h : decode c w = .ok i) :
    ∃ o, i = decodeRow c o ∧ o.word = canonicalWord w := by
  have hkind : wordKind w ≠ 0b111#3 := fun hk => by
    rw [decode_reservedKind c hk] at h
    cases h
  obtain ⟨o, hdecode, hword⟩ := decode_of_kind c hkind
  rw [hdecode] at h
  cases h
  exact ⟨o, rfl, hword⟩

/-! ### The address a register row is built from (R94) -/

section
variable {c : Config} {b : RegBlock} {a : Address} (h : c.claims b a = true)
include h

theorem Config.offset_lt : c.offset b a < b.count := by
  obtain ⟨hlo, hhi⟩ := (Config.claims_iff c b a).1 h
  rw [Config.offset]
  omega

/-- A claimed address is found again at its offset, also in a map that is not legal. -/
theorem Config.registerAt_offset : c.registerAt b (c.offset b a) = a := by
  obtain ⟨hlo, -⟩ := (Config.claims_iff c b a).1 h
  have ha := a.isLt
  apply BitVec.eq_of_toNat_eq
  simp only [Config.registerAt, Config.offset, BitVec.toNat_add, BitVec.toNat_ofNat]
  omega

/-- The one address of a register of one address. -/
theorem Config.registerAt_zero (hone : b.count = 1) : c.registerAt b 0 = a := by
  have hoffset := Config.offset_lt h
  have hzero : c.offset b a = 0 := by omega
  rw [← hzero, Config.registerAt_offset h]

end

/-! ### An address of each region is rebuilt from its low bits (20_memory.md R69) -/

section
variable {a : Address}

theorem ramAddress_eq (hi : a.toNat ≤ 0x1FFF) : 0b000#3 ++ a.setWidth 13 = a :=
  append_setWidth_low (m := 13) 0b000#3 a (by rw [BitVec.toNat_ofNat]; omega)

theorem registerAddress_eq (lo : 0x2000 ≤ a.toNat) (hi : a.toNat ≤ 0x2FFF) : regWindowAddress (a.setWidth 12) = a :=
  append_setWidth_low (m := 12) 0x2#4 a (by rw [BitVec.toNat_ofNat]; omega)

theorem unmapped3Address_eq (lo : 0x3000 ≤ a.toNat) (hi : a.toNat ≤ 0x3FFF) : 0x3#4 ++ a.setWidth 12 = a :=
  append_setWidth_low (m := 12) 0x3#4 a (by rw [BitVec.toNat_ofNat]; omega)

theorem vramAddress_eq (lo : 0x4000 ≤ a.toNat) (hi : a.toNat ≤ 0x5FFF) : 0b010#3 ++ a.setWidth 13 = a :=
  append_setWidth_low (m := 13) 0b010#3 a (by rw [BitVec.toNat_ofNat]; omega)

theorem unmapped6Address_eq (lo : 0x6000 ≤ a.toNat) (hi : a.toNat ≤ 0x7FFF) : 0b011#3 ++ a.setWidth 13 = a :=
  append_setWidth_low (m := 13) 0b011#3 a (by rw [BitVec.toNat_ofNat]; omega)

theorem romBankAddress_eq (lo : 0x8000 ≤ a.toNat) (hi : a.toNat ≤ 0xBFFF) : 0b10#2 ++ a.setWidth 14 = a :=
  append_setWidth_low (m := 14) 0b10#2 a (by rw [BitVec.toNat_ofNat]; omega)

theorem romFixedAddress_eq (lo : 0xC000 ≤ a.toNat) : 0b11#2 ++ a.setWidth 14 = a :=
  append_setWidth_low (m := 14) 0b11#2 a (by rw [BitVec.toNat_ofNat]; omega)

end

/-! ### The row of an operation stands for that operation (R95) -/

section
variable (c : Config) (v : Byte) {r : Nat}

theorem decodeVdma_operation (hr : r < RegBlock.vdma.count) :
    (decodeVdma r v).operation c = .write (c.registerAt .vdma r) v := by
  rw [decodeVdma]
  split
  case isTrue hfirst => rw [Instr.operation, BitVec.toNat_ofNat, Nat.mod_eq_of_lt hfirst]
  case isFalse hlast =>
    have hr' : r < 6 := hr
    have hoffset : 4 + (r - 4) % 2 ^ 1 = r := by omega
    rw [Instr.operation, BitVec.toNat_ofNat, hoffset]

theorem decodeSquare0_operation (hr : r < RegBlock.sq0.count) :
    (decodeSquare0 r v).operation c = .write (c.registerAt .sq0 r) v :=
  match r, hr with
  | 0, _ | 1, _ | 2, _ | 3, _ => rfl

theorem decodeSquare1_operation (hr : r < RegBlock.sq1.count) :
    (decodeSquare1 r v).operation c = .write (c.registerAt .sq1 r) v :=
  match r, hr with
  | 0, _ | 1, _ | 2, _ | 3, _ => rfl

theorem decodePcm_operation (hr : r < RegBlock.pcm.count) :
    (decodePcm r v).operation c = .write (c.registerAt .pcm r) v :=
  match r, hr with
  | 0, _ | 1, _ | 2, _ | 3, _ | 4, _ => rfl

theorem decodeLink_operation (hr : r < RegBlock.link.count) :
    (decodeLink r v).operation c = .write (c.registerAt .link r) v :=
  match r, hr with
  | 0, _ | 1, _ => rfl

theorem decodeNoise_operation (hr : r < RegBlock.noise.count) :
    (decodeNoise r v).operation c = .write (c.registerAt .noise r) v :=
  match r, hr with
  | 0, _ | 1, _ | 2, _ => rfl

/-- The two LCD rows carry the offset in the block. -/
theorem registerAt_lcd {a : Address} (h : c.claims .lcd a = true) :
    c.registerAt .lcd (BitVec.ofNat 3 (c.offset .lcd a)).toNat = a := by
  have hoffset : c.offset .lcd a < 2 ^ 3 := Config.offset_lt h
  rw [BitVec.toNat_ofNat, Nat.mod_eq_of_lt hoffset, Config.registerAt_offset h]

end

section
variable (c : Config) {a : Address}

section
variable (lo : 0x2000 ≤ a.toNat) (hi : a.toNat ≤ 0x2FFF)
include lo hi

theorem decodeReadRegister_operation : (decodeReadRegister c a).operation c = .read a := by
  simp only [decodeReadRegister, Config.hits_eq_claims]
  split
  case isTrue h => exact congrArg Operation.read (registerAt_lcd c h)
  split
  case isTrue h => exact congrArg Operation.read (Config.registerAt_zero h rfl)
  split
  case isTrue h => exact congrArg Operation.read (Config.registerAt_zero h rfl)
  split
  case isTrue h => exact congrArg Operation.read (Config.registerAt_zero h rfl)
  split
  case isTrue h => exact congrArg Operation.read (Config.registerAt_zero h rfl)
  split
  case isTrue h => exact congrArg Operation.read (Config.registerAt_zero h rfl)
  exact congrArg Operation.read (registerAddress_eq lo hi)

theorem decodeWriteRegister_operation (v : Byte) : (decodeWriteRegister c a v).operation c = .write a v := by
  simp only [decodeWriteRegister, Config.hits_eq_claims]
  split
  case isTrue h => exact congrArg (Operation.write · v) (registerAt_lcd c h)
  split
  case isTrue h => rw [decodeVdma_operation c v (Config.offset_lt h), Config.registerAt_offset h]
  split
  case isTrue h => rw [decodeSquare0_operation c v (Config.offset_lt h), Config.registerAt_offset h]
  split
  case isTrue h => rw [decodeSquare1_operation c v (Config.offset_lt h), Config.registerAt_offset h]
  split
  case isTrue h => rw [decodePcm_operation c v (Config.offset_lt h), Config.registerAt_offset h]
  split
  case isTrue h => rw [decodeLink_operation c v (Config.offset_lt h), Config.registerAt_offset h]
  split
  case isTrue h => exact congrArg (Operation.write · v) (Config.registerAt_zero h rfl)
  split
  case isTrue h => exact congrArg (Operation.write · v) (Config.registerAt_zero h rfl)
  split
  case isTrue h => rw [decodeNoise_operation c v (Config.offset_lt h), Config.registerAt_offset h]
  exact congrArg (Operation.write · v) (registerAddress_eq lo hi)

end

/-- The row of a READ is a READ of the same address, in each region of R69. -/
theorem decodeRead_operation (a : Address) : (decodeRead c a).operation c = .read a := by
  unfold decodeRead
  split
  case isTrue hi => exact congrArg Operation.read (ramAddress_eq hi)
  split
  case isTrue lo hi => exact decodeReadRegister_operation c (Nat.lt_of_not_le lo) hi
  split
  case isTrue lo hi => exact congrArg Operation.read (unmapped3Address_eq (Nat.lt_of_not_le lo) hi)
  split
  case isTrue lo hi => exact congrArg Operation.read (vramAddress_eq (Nat.lt_of_not_le lo) hi)
  split
  case isTrue lo hi => exact congrArg Operation.read (unmapped6Address_eq (Nat.lt_of_not_le lo) hi)
  split
  case isTrue lo hi => exact congrArg Operation.read (romBankAddress_eq (Nat.lt_of_not_le lo) hi)
  exact congrArg Operation.read (romFixedAddress_eq (Nat.lt_of_not_le ‹_›))

/-- The row of a WRITE is a WRITE of the same address and value. -/
theorem decodeWrite_operation (a : Address) (v : Byte) : (decodeWrite c a v).operation c = .write a v := by
  unfold decodeWrite
  split
  case isTrue hi => exact congrArg (Operation.write · v) (ramAddress_eq hi)
  split
  case isTrue lo hi => exact decodeWriteRegister_operation c (Nat.lt_of_not_le lo) hi v
  split
  case isTrue lo hi => exact congrArg (Operation.write · v) (unmapped3Address_eq (Nat.lt_of_not_le lo) hi)
  split
  case isTrue lo hi => exact congrArg (Operation.write · v) (vramAddress_eq (Nat.lt_of_not_le lo) hi)
  split
  case isTrue lo hi => exact congrArg (Operation.write · v) (unmapped6Address_eq (Nat.lt_of_not_le lo) hi)
  split
  case isTrue lo hi => exact congrArg (Operation.write · v) (romBankAddress_eq (Nat.lt_of_not_le lo) hi)
  exact congrArg (Operation.write · v) (romFixedAddress_eq (Nat.lt_of_not_le ‹_›))

theorem decodeRow_operation (o : Operation) : (decodeRow c o).operation c = o := by
  cases o with
  | read a => exact decodeRead_operation c a
  | write a v => exact decodeWrite_operation c a v
  | tick | frame | sample | takeIrq | reset => rfl

end

/-! ### The catch-all rows (R95) -/

theorem RegBlock.forall_readable_iff {p : RegBlock → Prop} : (∀ b : RegBlock, b.readable = true → p b) ↔
    p .lcd ∧ p .ctrl ∧ p .timer ∧ p .tack ∧ p .aack ∧ p .irqstat := by
  refine ⟨fun h => ⟨h _ rfl, h _ rfl, h _ rfl, h _ rfl, h _ rfl, h _ rfl⟩, ?_⟩
  rintro ⟨hlcd, hctrl, htimer, htack, haack, hirqstat⟩ b hreadable
  cases b with
  | lcd | ctrl | timer | tack | aack | irqstat => assumption
  | vdma | sq0 | sq1 | pcm | link | sysctl | noise => cases hreadable

theorem RegBlock.forall_writable_iff {p : RegBlock → Prop} : (∀ b : RegBlock, b.writable = true → p b) ↔
    p .lcd ∧ p .vdma ∧ p .sq0 ∧ p .sq1 ∧ p .pcm ∧ p .link ∧ p .timer ∧ p .sysctl ∧ p .noise := by
  refine ⟨fun h => ⟨h _ rfl, h _ rfl, h _ rfl, h _ rfl, h _ rfl, h _ rfl, h _ rfl, h _ rfl, h _ rfl⟩, ?_⟩
  rintro ⟨hlcd, hvdma, hsq0, hsq1, hpcm, hlink, htimer, hsysctl, hnoise⟩ b hwritable
  cases b with
  | lcd | vdma | sq0 | sq1 | pcm | link | timer | sysctl | noise => assumption
  | ctrl | tack | aack | irqstat => cases hwritable

section
variable (c : Config) (a : BitVec 12)

theorem wellFormed_rdRegUnknown_iff : (Instr.rdRegUnknown a).wellFormed c = true ↔
    ∀ b : RegBlock, b.readable = true → c.claims b (regWindowAddress a) = false := by
  simp [Instr.wellFormed, RegBlock.mem_all, imp_iff_not_or]

theorem wellFormed_wrRegOther_iff (v : Byte) : (Instr.wrRegOther a v).wellFormed c = true ↔
    ∀ b : RegBlock, b.writable = true → c.claims b (regWindowAddress a) = false := by
  simp [Instr.wellFormed, RegBlock.mem_all, imp_iff_not_or]

end

section
variable {c : Config} {a : Address} (lo : 0x2000 ≤ a.toNat) (hi : a.toNat ≤ 0x2FFF)
include lo hi

/-- The catch-all row comes last: where it is reached, every block with a read handler has been tried. -/
theorem decodeReadRegister_wellFormed : (decodeReadRegister c a).wellFormed c = true := by
  simp only [decodeReadRegister, Config.hits_eq_claims]
  split_ifs
  case neg =>
    rw [wellFormed_rdRegUnknown_iff, registerAddress_eq lo hi, RegBlock.forall_readable_iff]
    simp only [← Bool.not_eq_true]
    refine ⟨?_, ?_, ?_, ?_, ?_, ?_⟩ <;> assumption
  all_goals rfl

theorem decodeWriteRegister_wellFormed (v : Byte) : (decodeWriteRegister c a v).wellFormed c = true := by
  simp only [decodeWriteRegister, Config.hits_eq_claims]
  split_ifs
  case neg =>
    rw [wellFormed_wrRegOther_iff, registerAddress_eq lo hi, RegBlock.forall_writable_iff]
    simp only [← Bool.not_eq_true]
    refine ⟨?_, ?_, ?_, ?_, ?_, ?_, ?_, ?_, ?_⟩ <;> assumption
  -- The blocks of several registers: each register is a row without a condition.
  · rfl
  · unfold decodeVdma; split <;> rfl
  · unfold decodeSquare0; split <;> rfl
  · unfold decodeSquare1; split <;> rfl
  · unfold decodePcm; split <;> rfl
  · unfold decodeLink; split <;> rfl
  · rfl
  · rfl
  · unfold decodeNoise; split <;> rfl

end

section
variable (c : Config)

theorem decodeRead_wellFormed (a : Address) : (decodeRead c a).wellFormed c = true := by
  unfold decodeRead
  split_ifs with hram hreg
  · rfl
  · exact decodeReadRegister_wellFormed (Nat.lt_of_not_le hram) hreg
  all_goals rfl

theorem decodeWrite_wellFormed (a : Address) (v : Byte) : (decodeWrite c a v).wellFormed c = true := by
  unfold decodeWrite
  split_ifs with hram hreg
  · rfl
  · exact decodeWriteRegister_wellFormed (Nat.lt_of_not_le hram) hreg v
  all_goals rfl

theorem decodeRow_wellFormed (o : Operation) : (decodeRow c o).wellFormed c = true := by
  cases o with
  | read a => exact decodeRead_wellFormed c a
  | write a v => exact decodeWrite_wellFormed c a v
  | tick | frame | sample | takeIrq | reset => rfl

end

/-! ### An instruction is found at the address of its row -/

theorem kindIs_sample (c : Config) : KindIs c 0b100 .sample :=
  (kindIs_iff (by decide) (by decide) _).2 (decode_word c .sample)

section
variable {c : Config} (hmap : c.legalMap = true) (v : Byte)
include hmap

/-- A register of one address is read by the row of its block. -/
theorem readIs_registerAt_zero {i : Instr} (b : RegBlock) (hb : 0 < b.count)
    (hrow : ∀ {a : Address}, c.claims b a = true → decodeReadRegister c a = i) : ReadIs c (c.registerAt b 0) i := by
  obtain ⟨hclaims, -⟩ := Config.claims_registerAt hmap hb
  exact readIs_of_claims hmap hclaims (hrow hclaims)

theorem readIs_lcd (a : BitVec 3) : ReadIs c (c.registerAt .lcd a.toNat) (.rdLcd a) := by
  obtain ⟨hclaims, hoffset⟩ := Config.claims_registerAt hmap (b := .lcd) a.isLt
  refine readIs_of_claims hmap hclaims ?_
  rw [decodeReadRegister_lcd hclaims, hoffset, BitVec.ofNat_toNat, BitVec.setWidth_eq]

theorem writeIs_lcd (a : BitVec 3) : WriteIs c (c.registerAt .lcd a.toNat) v (.wrLcd a v) := by
  obtain ⟨hclaims, hoffset⟩ := Config.claims_registerAt hmap (b := .lcd) a.isLt
  refine writeIs_of_claims hmap hclaims ?_
  rw [decodeWriteRegister_lcd hclaims, hoffset, BitVec.ofNat_toNat, BitVec.setWidth_eq]

theorem writeIs_vdma {r : Nat} (hr : r < RegBlock.vdma.count) :
    WriteIs c (c.registerAt .vdma r) v (decodeVdma r v) :=
  writeIs_registerAt hmap .vdma (decodeVdma · v) hr (decodeWriteRegister_vdma hmap · v)

theorem writeIs_link (r : Nat) (hr : r < RegBlock.link.count) :
    WriteIs c (c.registerAt .link r) v (decodeLink r v) :=
  writeIs_registerAt hmap .link (decodeLink · v) hr (decodeWriteRegister_link hmap · v)

theorem writeIs_vdma_first (a : BitVec 2) : WriteIs c (c.registerAt .vdma a.toNat) v (.wrVdmaA a v) :=
  decodeVdma_first a v ▸ writeIs_vdma hmap v (Nat.lt_trans a.isLt (by decide))

theorem writeIs_vdma_last (b : BitVec 1) : WriteIs c (c.registerAt .vdma (4 + b.toNat)) v (.wrVdmaB b v) :=
  decodeVdma_last b v ▸ writeIs_vdma hmap v (Nat.add_lt_add_left b.isLt 4)

/-- An address of a block without a write handler is written by the catch-all row: no other block claims it (R139). -/
theorem writeIs_wrRegOther_of_claims {b : RegBlock} {a : Address} (hb : c.claims b a = true)
    (hunwritten : b.writable = false) : WriteIs c a v (.wrRegOther (a.setWidth 12) v) := by
  refine writeIs_of_claims hmap hb (decodeWriteRegister_unknown (fun d hwrite => ?unclaimed) v)
  case unclaimed =>
    have hbd : b ≠ d := ne_of_apply_ne RegBlock.writable (by rw [hunwritten, hwrite]; decide)
    exact Config.claims_unique hmap hb hbd

end

/-! ### The catch-all addresses of the default map -/

theorem regWindowAddress_toNat (a : BitVec 12) : (regWindowAddress a).toNat = 0x2000 + a.toNat :=
  toNat_append_eq 0x2#4 a

theorem Config.claims_eq_false_iff (c : Config) (b : RegBlock) (a : Address) :
    c.claims b a = false ↔ a.toNat < (c.base b).toNat ∨ (c.base b).toNat + b.count ≤ a.toNat := by
  rw [← Bool.not_eq_true, Config.claims_iff]
  omega

section
variable (a : BitVec 12)

/-- The blocks with a read handler are LCD, at 0x000, and single addresses: 0x020, 0x023 to 0x025 and 0x027. -/
theorem rdRegUnknown_default_iff : (Instr.rdRegUnknown a).wellFormed Config.default = true ↔
    (0x008 ≤ a.toNat ∧ a.toNat ≤ 0x01F) ∨ a.toNat = 0x021 ∨ a.toNat = 0x022 ∨ a.toNat = 0x026 ∨ 0x028 ≤ a.toNat := by
  rw [wellFormed_rdRegUnknown_iff, RegBlock.forall_readable_iff]
  simp only [Config.claims_eq_false_iff, regWindowAddress_toNat, Config.base, Config.default, RegBlock.count,
    BitVec.ofNat_eq_ofNat, BitVec.toNat_ofNat]
  omega

/-- The blocks with a write handler leave no gap but those of the list. -/
theorem wrRegOther_default_iff (v : Byte) : (Instr.wrRegOther a v).wellFormed Config.default = true ↔
    a.toNat = 0x00E ∨ a.toNat = 0x00F ∨ (0x01D ≤ a.toNat ∧ a.toNat ≤ 0x020) ∨ a.toNat = 0x024 ∨ a.toNat = 0x025 ∨
      a.toNat = 0x027 ∨ 0x02B ≤ a.toNat := by
  rw [wellFormed_wrRegOther_iff, RegBlock.forall_writable_iff]
  simp only [Config.claims_eq_false_iff, regWindowAddress_toNat, Config.base, Config.default, RegBlock.count,
    BitVec.ofNat_eq_ofNat, BitVec.toNat_ofNat]
  omega

end

/-! ### The statements -/

/-- Settles O1: each row is found at the address it is built from, a region's by its high bits, a register's by its
block and number, a catch-all row's because no other block claims the address, and a row without address by its kind. -/
theorem encodeThenDecodeGivesTheInstruction : Obligations.EncodeThenDecodeGivesTheInstruction := by
  intro c i hmap hwf
  cases i with
  | rdRam a => exact (ramAddress_rows c a).1 0
  | rdLcd a => exact readIs_lcd hmap a 0
  | rdCtrl => exact readIs_registerAt_zero hmap .ctrl (by decide) (decodeReadRegister_ctrl hmap) 0
  | rdTimer => exact readIs_registerAt_zero hmap .timer (by decide) (decodeReadRegister_timer hmap) 0
  | rdTack => exact readIs_registerAt_zero hmap .tack (by decide) (decodeReadRegister_tack hmap) 0
  | rdAack => exact readIs_registerAt_zero hmap .aack (by decide) (decodeReadRegister_aack hmap) 0
  | rdIrqstat => exact readIs_registerAt_zero hmap .irqstat (by decide) (decodeReadRegister_irqstat hmap) 0
  | rdRegUnknown a => exact readIs_rdRegUnknown ((wellFormed_rdRegUnknown_iff c a).1 hwf) 0
  | rdUnmapped3 a => exact (unmapped3Address_rows c a).1 0
  | rdVram a => exact (vramAddress_rows c a).1 0
  | rdUnmapped6 a => exact (unmapped6Address_rows c a).1 0
  | rdRomBank a => exact (romBankAddress_rows c a).1 0
  | rdRomFixed a => exact (romFixedAddress_rows c a).1 0
  | wrRam a v => exact (ramAddress_rows c a).2 v
  | wrLcd a v => exact writeIs_lcd hmap v a
  | wrVdmaA a v => exact writeIs_vdma_first hmap v a
  | wrVdmaB b v => exact writeIs_vdma_last hmap v b
  | wrSq0R0 v => exact writeIs_sq0 hmap v 0 (by decide)
  | wrSq0R1 v => exact writeIs_sq0 hmap v 1 (by decide)
  | wrSq0R2 v => exact writeIs_sq0 hmap v 2 (by decide)
  | wrSq0R3 v => exact writeIs_sq0 hmap v 3 (by decide)
  | wrSq1R0 v => exact writeIs_sq1 hmap v 0 (by decide)
  | wrSq1R1 v => exact writeIs_sq1 hmap v 1 (by decide)
  | wrSq1R2 v => exact writeIs_sq1 hmap v 2 (by decide)
  | wrSq1R3 v => exact writeIs_sq1 hmap v 3 (by decide)
  | wrPcmR0 v => exact writeIs_pcm hmap v 0 (by decide)
  | wrPcmR1 v => exact writeIs_pcm hmap v 1 (by decide)
  | wrPcmR2 v => exact writeIs_pcm hmap v 2 (by decide)
  | wrPcmR3 v => exact writeIs_pcm hmap v 3 (by decide)
  | wrPcmR4 v => exact writeIs_pcm hmap v 4 (by decide)
  | wrLink0 v => exact writeIs_link hmap v 0 (by decide)
  | wrLink1 v => exact writeIs_link hmap v 1 (by decide)
  | wrTimer v =>
    exact writeIs_registerAt hmap .timer (fun _ => .wrTimer v) (by decide) (decodeWriteRegister_timer hmap · v)
  | wrSysctl v =>
    exact writeIs_registerAt hmap .sysctl (fun _ => .wrSysctl v) (by decide) (decodeWriteRegister_sysctl hmap · v)
  | wrNoiseR0 v => exact writeIs_noise hmap v 0 (by decide)
  | wrNoiseR1 v => exact writeIs_noise hmap v 1 (by decide)
  | wrNoiseR2 v => exact writeIs_noise hmap v 2 (by decide)
  | wrRegOther a v => exact writeIs_wrRegOther ((wellFormed_wrRegOther_iff c a v).1 hwf)
  | wrUnmapped3 a v => exact (unmapped3Address_rows c a).2 v
  | wrVram a v => exact (vramAddress_rows c a).2 v
  | wrUnmapped6 a v => exact (unmapped6Address_rows c a).2 v
  | wrRomBank a v => exact (romBankAddress_rows c a).2 v
  | wrRomFixed a v => exact (romFixedAddress_rows c a).2 v
  | tick => exact kindIs_tick c 0 0
  | frame => exact kindIs_frame c 0 0
  | sample => exact kindIs_sample c 0 0
  | takeIrq => exact kindIs_takeIrq c 0 0
  | reset => exact kindIs_reset c 0 0

/-- Settles O2: what a word decodes to is the row of an operation, the row stands for that operation, and the operation's
own word is the canonical one. -/
theorem decodeThenEncodeGivesTheCanonicalWord : Obligations.DecodeThenEncodeGivesTheCanonicalWord := by
  intro c w i h
  obtain ⟨o, rfl, hword⟩ := decode_ok h
  rw [encode, decodeRow_operation, hword]

/-- Settles O3: every row the decoder gives meets its own condition. -/
theorem decodedInstructionIsWellFormed : Obligations.DecodedInstructionIsWellFormed := by
  intro c w i h
  obtain ⟨o, rfl, -⟩ := decode_ok h
  exact decodeRow_wellFormed c o

/-- Settles O4: the reserved kind is refused and every other kind decodes; only WRITE looks at the data field, and only
READ and WRITE look at the address. -/
theorem unusedFieldsAreIgnoredAndOnlyKindSevenIsRefused : Obligations.UnusedFieldsAreIgnoredAndOnlyKindSevenIsRefused := by
  refine ⟨fun c w => ⟨decode_reservedKind c, fun hrefused => ?refused⟩, fun c w hkind => ?accepted,
    fun c a z z' => ?read, fun c k a a' z z' hread hwrite => ?others⟩
  case refused =>
    by_contra hkind
    obtain ⟨o, hdecode, -⟩ := decode_of_kind c hkind
    rw [hdecode] at hrefused
    cases hrefused
  case accepted =>
    obtain ⟨o, hdecode, -⟩ := decode_of_kind c hkind
    exact ⟨_, hdecode⟩
  case read =>
    have hrow := (readIs_iff c a (decodeRead c a)).2 rfl
    rw [hrow z, hrow z']
  case others => rw [decode_makeWord_of_kind c hread hwrite, decode_makeWord_of_kind c hread hwrite a']

/-- Settles O6: in a legal map no other block claims the address, so an access in the missing direction finds none. -/
theorem wrongDirectionAccessIsTheCatchAllRow : Obligations.WrongDirectionAccessIsTheCatchAllRow :=
  fun _ _ _ v hmap hb => ⟨readIs_rdRegUnknown_of_claims hmap hb, writeIs_wrRegOther_of_claims hmap v hb⟩

/-- Settles O7: the gaps of the default map, for each direction. -/
theorem defaultMapHasTheListedUnknownAddresses : Obligations.DefaultMapHasTheListedUnknownAddresses :=
  fun a v => ⟨rdRegUnknown_default_iff a, wrRegOther_default_iff a v⟩

/-- Settles O8: the words are closed, so the decoder evaluates on each of them. -/
theorem listedWordsDecodeAsListed : Obligations.ListedWordsDecodeAsListed :=
  ⟨rfl, rfl, rfl, rfl, rfl, rfl, rfl, rfl, rfl, rfl⟩

end Sys2Proof
end

section
/-! PROOFS. Many steps of a square channel and many updates of the LFSR (44_sound_sample.md R190 to R195), and the size of
a period (43_sound_registers.md R166). Inside a waveform steps only move the position, so a cycle is the one step that
wraps, and a length of `n` is `n` cycles. The LFSR keeps the bit that its shift injects, or has one left to shift. -/

namespace Sys2Proof.Machine

/-! ### The size of a period (R166) -/

/-- The period has 11 bits. -/
theorem squarePeriod_le (q : Square) : squarePeriod q ≤ 2047 := by
  have hphi := q.phi.isLt
  have hplo := q.plo.isLt
  rw [squarePeriod]
  omega

/-- Settles O36: the two numbers of R9 put in place, and then arithmetic on a period of at most 2047. -/
theorem squareSizeOfAPeriod : Obligations.SquareSizeOfAPeriod := by
  intro q
  have hperiod := squarePeriod_le q
  rw [squareSize_eq]
  omega

/-! ### Steps inside a waveform (R190, R191) -/

theorem squareSteps_add (m n : Nat) (q : Square) : squareSteps (m + n) q = squareSteps n (squareSteps m q) := by
  induction m generalizing q with
  | zero => rw [Nat.zero_add, squareSteps]
  | succ m ih => rw [Nat.succ_add, squareSteps, squareSteps, ih]

theorem squareSteps_succ (n : Nat) (q : Square) : squareSteps (n + 1) q = (squareStep (squareSteps n q)).2 :=
  squareSteps_add n 1 q

theorem squareOutputs_eq_map (n : Nat) (q : Square) :
    squareOutputs n q = (List.range n).map fun k => (squareStep (squareSteps k q)).1 := by
  induction n generalizing q with
  | zero => rfl
  | succ n ih =>
    rw [squareOutputs, ih, List.range_succ_eq_map, List.map_cons, List.map_map]
    rfl

/-- The channel at another position of its waveform. -/
def Square.atPos (q : Square) (pos : Nat) : Square := { q with pos := pos }

section
variable {q : Square} (he : q.en = true)
include he

/-- At a position inside the waveform the channel outputs by the threshold. -/
theorem squareStep_atPos (hsize : 1 ≤ q.size) (pos : Nat) : squareStep (q.atPos pos) =
    (if pos < squareThreshold q.duty q.size then q.vol.toNat else 0, squareAdvance (q.atPos pos)) :=
  squareStep_active (q := q.atPos pos) he hsize

/-- Steps that stay inside the waveform move the position alone. -/
theorem squareSteps_inside {k : Nat} (hk : q.pos + k < q.size) : squareSteps k q = q.atPos (q.pos + k) := by
  induction k with
  | zero => rfl
  | succ k ih =>
    have hsize : 1 ≤ q.size := Nat.zero_lt_of_lt hk
    rw [squareSteps_succ, ih (Nat.lt_of_succ_lt hk), squareStep_atPos he hsize]
    exact squareAdvance_inside (q := q.atPos (q.pos + k)) hk

variable (hpos : q.pos = 0)
include hpos

/-- The steps of a cycle before its last. -/
theorem squareSteps_of_lt_size {k : Nat} (hk : k < q.size) : squareSteps k q = q.atPos k := by
  rw [squareSteps_inside he (by omega), hpos, Nat.zero_add]

theorem squareSteps_of_lt_size_en {k : Nat} (hk : k < q.size) : (squareSteps k q).en = true := by
  rw [squareSteps_of_lt_size he hpos hk]
  exact he

variable (hsize : 1 ≤ q.size)
include hsize

/-- A cycle ends in the advance from its last position, which wraps. -/
theorem squareSteps_size : squareSteps q.size q = squareAdvance (q.atPos (q.size - 1)) := by
  have hlast : squareSteps (q.size - 1) q = q.atPos (q.size - 1) := squareSteps_of_lt_size he hpos (by omega)
  have hsteps := squareSteps_succ (q.size - 1) q
  rwa [Nat.sub_add_cancel hsize, hlast, squareStep_atPos he hsize] at hsteps

/-- A cycle that is not the last one counts the length down. -/
theorem squareSteps_cycle (hlen : 1 < q.len) : squareSteps q.size q = { q with len := q.len - 1 } := by
  have hwrap : q.size ≤ (q.size - 1) + 1 := Nat.le_of_eq (Nat.sub_add_cancel hsize).symm
  rw [squareSteps_size he hpos hsize, squareAdvance_wrap_long (q := q.atPos (q.size - 1)) hwrap hlen, ← hpos]
  rfl

/-- The last cycle disables the channel. -/
theorem squareSteps_last_cycle (hlen : q.len ≤ 1) :
    squareSteps q.size q = { q with en := false, len := 0, pos := 0 } := by
  have hwrap : q.size ≤ (q.size - 1) + 1 := Nat.le_of_eq (Nat.sub_add_cancel hsize).symm
  rw [squareSteps_size he hpos hsize, squareAdvance_wrap_last (q := q.atPos (q.size - 1)) hwrap hlen]
  rfl

end

/-- R192 (b), (c), by induction on the cycles after the first. -/
theorem squareSteps_plays (n : Nat) {q : Square} (he : q.en = true) (hsize : 1 ≤ q.size) (hpos : q.pos = 0)
    (hn : max q.len 1 = n + 1) :
    (∀ k, k < (n + 1) * q.size → (squareSteps k q).en = true) ∧
      squareSteps ((n + 1) * q.size) q = { q with en := false, len := 0, pos := 0 } := by
  induction n generalizing q with
  | zero =>
    rw [Nat.zero_add, Nat.one_mul]
    exact ⟨fun k hk => squareSteps_of_lt_size_en he hpos hk, squareSteps_last_cycle he hpos hsize (by omega)⟩
  | succ n ih =>
    have hcycle := squareSteps_cycle he hpos hsize (by omega)
    have hleft : max (q.len - 1) 1 = n + 1 := by omega
    obtain ⟨hplays, hends⟩ := ih (q := { q with len := q.len - 1 }) he hsize hpos hleft
    rw [Nat.succ_mul, Nat.add_comm]
    refine ⟨fun k hk => ?enabled, ?ends⟩
    case enabled =>
      by_cases hfirst : k < q.size
      · exact squareSteps_of_lt_size_en he hpos hfirst
      · obtain ⟨j, rfl⟩ := Nat.exists_eq_add_of_le (Nat.le_of_not_lt hfirst)
        rw [squareSteps_add, hcycle]
        exact hplays j (Nat.lt_of_add_lt_add_left hk)
    case ends => rw [squareSteps_add, hcycle, hends]

/-- Settles O41: `max(len, 1)` cycles, the last of which disables the channel. -/
theorem squareChannelPlaysExactlyItsLength : Obligations.SquareChannelPlaysExactlyItsLength := by
  intro q he hsize hpos
  have hcycles : max q.len 1 = (max q.len 1 - 1) + 1 := by omega
  rw [hcycles]
  exact squareSteps_plays _ he hsize hpos hcycles

/-- A duty is a part of the waveform. -/
theorem squareThreshold_le (duty : BitVec 2) (size : Nat) : squareThreshold duty size ≤ size := by
  unfold squareThreshold
  split_ifs <;> omega

/-- What holds below a threshold and then not any more, listed. -/
theorem map_range_lt_threshold {t n : Nat} (h : t ≤ n) (x : Nat) :
    (List.range n).map (fun k => if k < t then x else 0) = List.replicate t x ++ List.replicate (n - t) 0 := by
  apply List.ext_getElem
  · simp [h]
  · intro k _ _
    simp [List.getElem_append]

/-- Settles O42: in step `k` of the cycle the channel stands at position `k`, and outputs by the threshold. -/
theorem squareCycleIsHighThenLow : Obligations.SquareCycleIsHighThenLow := by
  intro q he hsize hpos
  have hthreshold := squareThreshold_le q.duty q.size
  refine ⟨hthreshold, ?outputs⟩
  rw [squareOutputs_eq_map, ← map_range_lt_threshold hthreshold]
  refine List.map_congr_left fun k hk => ?_
  rw [squareSteps_of_lt_size he hpos (List.mem_range.1 hk), squareStep_atPos he hsize]

/-! ### The LFSR (R194, R195) -/

/-- The LFSR is never zero, and within 7 bits in 7-bit mode (10_state.md R49 (d)). -/
def LfsrGood (m15 : Bool) (x : BitVec 15) : Prop := x ≠ 0 ∧ (m15 = false → x.toNat ≤ 0x7F)

/-- Bits 0 and 1 equal, the value is not 1, so a bit above bit 0 is left; else the feedback is injected. -/
theorem lfsrShift_ne_zero (m15 : Bool) {x : BitVec 15} (hx : x ≠ 0) : lfsrShift m15 x ≠ 0 := by
  suffices hnat : (lfsrShift m15 x).toNat ≠ 0 from fun hzero => hnat (by rw [hzero]; rfl)
  by_cases hbits : x.getLsbD 0 = x.getLsbD 1
  case pos =>
    have hone : x ≠ 1 := by rintro rfl; exact absurd hbits (by decide)
    rw [lfsrShift_toNat_of_eq m15 hbits]
    bv_omega
  case neg =>
    cases m15 with
    | true => rw [lfsrShift_toNat_fifteen hbits]; omega
    | false =>
      rw [lfsrShift_toNat_seven hbits]
      exact fun hzero => absurd (Nat.or_eq_zero_iff.1 hzero).2 (by decide)

theorem lfsrUpdate_good {m15 : Bool} {x : BitVec 15} (h : LfsrGood m15 x) : LfsrGood m15 (lfsrUpdate m15 x) := by
  obtain ⟨-, hseven⟩ := h
  exact ⟨lfsrUpdate_ne_zero m15 x, fun hmode => by subst hmode; exact lfsrUpdate_seven (hseven rfl)⟩

theorem lfsrUpdates_good (n : Nat) {m15 : Bool} {x : BitVec 15} (h : LfsrGood m15 x) :
    LfsrGood m15 (lfsrUpdates m15 n x) := by
  induction n generalizing x with
  | zero => exact h
  | succ n ih => exact ih (lfsrUpdate_good h)

/-- Settles O45: the invariant holds after any number of updates, and no shift of a non-zero value is zero. -/
theorem lfsrNeverReachesZero : Obligations.LfsrNeverReachesZero := by
  intro m15 n x hx hseven
  obtain ⟨hnonzero, hwidth⟩ := lfsrUpdates_good n (m15 := m15) ⟨hx, hseven⟩
  exact ⟨lfsrShift_ne_zero m15 hnonzero, hnonzero, hwidth⟩

end Sys2Proof.Machine
end

section
/-! PROOFS. SAMPLE as a whole (44_sound_sample.md R196, R198). The PCM step happens after the generators have stepped, and
a fetch does not look at them, so the three cases without a fetch and the two of a fetch are those of the PCM channel
itself. A playback from RAM is then one lemma per nibble, repeated. -/

namespace Sys2Proof.Machine

/-! ### What a fetch answers -/

/-- An answer with another state after it. -/
def Answer.mapAfter {α : Type} (f : State → State) : Answer α → Answer α
  | .done v d t => .done v d (f t)
  | .fault e => .fault e

/-- A fetch does not look at the generators. -/
theorem busRead_stepGenerators (s : State) (a : Address) :
    busRead (stepGenerators s) a = (busRead s a).mapAfter stepGenerators := by
  obtain ⟨b, d, hs, hg⟩ | ⟨b, hs, hg⟩ | ⟨f, hs, hg⟩ := busRead_agree s (stepGenerators s) a rfl rfl rfl rfl rfl rfl rfl
  · rw [hs, hg]; rfl
  · rw [hs, hg]; rfl
  · rw [hs, hg]; rfl

theorem busRead_ram {s : State} {a : Address} (ha : a.toNat ≤ 0x1FFF) :
    busRead s a = .done (ramByte s (a.setWidth 13)) false s := by
  rw [busRead, if_pos ha, readRam]

/-- The cursor advances modulo 65536. -/
theorem address_add_one (a : Address) : a + 1 = BitVec.ofNat 16 (a.toNat + 1) := by
  bv_omega

/-! ### The nibbles and the total as numbers (R196) -/

theorem pcmHighNibble_eq (b : Byte) : pcmHighNibble b = b.toNat / 16 := by
  have hb := b.isLt
  rw [pcmHighNibble, field_eq_ofNat, BitVec.toNat_ofNat]
  omega

theorem pcmLowNibble_eq (b : Byte) : pcmLowNibble b = b.toNat % 16 := by
  rw [pcmLowNibble, low_field_eq_ofNat, BitVec.toNat_ofNat]

theorem dmaTotal_eq (len : Byte) : dmaTotal len = (if len = 0 then 4096 else len.toNat * 16) * 2 := rfl

/-! ### The statements about one SAMPLE -/

/-- Settles O46: the PCM step in each of its three cases without a fetch, and the mix with what it contributes. -/
theorem sampleMixesTheFourChannels : Obligations.SampleMixesTheFourChannels := by
  intro s d p hcases
  refine ⟨kindIs_sample s.cfg, ?_⟩
  have hdma : dmaStep (stepGenerators s) = .done d false ((stepGenerators s).withPcm p) := by
    simp only [← dmaTotal_eq, ← pcmHighNibble_eq] at hcases
    obtain ⟨htrig, rfl, rfl⟩ | ⟨htrig, hend, rfl, rfl⟩ | ⟨htrig, hplays, hsel, rfl, rfl⟩ := hcases
    · exact dmaStep_stopped (s := stepGenerators s) htrig
    · exact dmaStep_ends (s := stepGenerators s) (Bool.not_eq_false _ ▸ htrig) hend
    · exact dmaStep_high (s := stepGenerators s) (Bool.not_eq_false _ ▸ htrig) (Nat.not_le.2 hplays) hsel
  rw [exec_sample, sampleState_of_done hdma]
  rfl

/-- Settles O47: the PCM step with its fetch, which leaves the generators and the PCM channel to SAMPLE. -/
theorem sampleWithAFetchReadsTheNextByte : Obligations.SampleWithAFetchReadsTheNextByte := by
  intro s htrig hsel hplays
  rw [← dmaTotal_eq] at hplays
  rw [← address_add_one, ← pcmLowNibble_eq]
  have htrig' : ¬ (stepGenerators s).pcm.trig = false := Bool.not_eq_false _ ▸ htrig
  have hsel' : ¬ (stepGenerators s).pcm.sel = false := Bool.not_eq_false _ ▸ hsel
  have hgenerators := busRead_stepGenerators s (s.pcm.cur + 1)
  refine ⟨fun b g t hfetch => ?done, fun f hfetch => ?fault⟩
  case done =>
    rw [hfetch] at hgenerators
    rw [exec_sample,
      sampleState_of_done (dmaStep_low_of_fetch_done htrig' (Nat.not_le.2 hplays) hsel' hgenerators)]
    obtain rfl | ⟨rfl, -⟩ := busRead_done hfetch
    · rfl
    · rfl
  case fault =>
    rw [hfetch] at hgenerators
    rw [exec_sample,
      sampleState_of_fault (dmaStep_low_of_fetch_fault htrig' (Nat.not_le.2 hplays) hsel' hgenerators)]

/-! ### A playback from RAM -/

/-- A byte of RAM is fixed by the memory alone. -/
theorem ramByte_congr {s t : State} (h : t.ram = s.ram) (i : MemIndex) : ramByte t i = ramByte s i := by
  rw [ramByte, ramByte, h]

/-- `t` is `k` nibbles into the playback from RAM that starts in `s`: the next nibble is the low one when `k` is odd, and
the byte held is the one `k / 2` places on. -/
structure PlaysFromRam (s t : State) (k : Nat) : Prop where
  ram : t.ram = s.ram
  len : t.pcm.len = s.pcm.len
  trig : t.pcm.trig = true
  played : t.pcm.played = k
  sel : t.pcm.sel = decide (k % 2 = 1)
  cur : t.pcm.cur.toNat = s.pcm.cur.toNat + k / 2
  byte : t.pcm.byte = ramByte s (BitVec.ofNat 13 (s.pcm.cur.toNat + k / 2))

section
variable {s t : State} {k : Nat} (h : PlaysFromRam s t k)
include h

/-- A high nibble is emitted and the selector turns to the low one. -/
theorem PlaysFromRam.sample_high (hk : k < dmaTotal s.pcm.len) (heven : k % 2 = 0) :
    ∃ u, exec .sample t = .next u ∧ PlaysFromRam s u (k + 1) := by
  have hsel : t.pcm.sel = false := by rw [h.sel, heven]; rfl
  have hplays : t.pcm.played < dmaTotal t.pcm.len := by rw [h.played, h.len]; exact hk
  obtain ⟨-, hsample⟩ := sampleMixesTheFourChannels t _ _ (.inr (.inr ⟨h.trig, hplays, hsel, rfl, rfl⟩))
  have hodd : (k + 1) % 2 = 1 := by omega
  have hsame : (k + 1) / 2 = k / 2 := by omega
  refine ⟨_, hsample, h.ram, h.len, h.trig, congrArg (· + 1) h.played, ?sel, ?cur, ?byte⟩
  case sel => rw [hodd]; rfl
  case cur => rw [hsame]; exact h.cur
  case byte => rw [hsame]; exact h.byte

/-- A low nibble is emitted, the cursor moves on, and the next byte comes from RAM. -/
theorem PlaysFromRam.sample_low (hk : k < dmaTotal s.pcm.len) (hram : s.pcm.cur.toNat + dmaBytes s.pcm.len ≤ 0x1FFF)
    (hodd : k % 2 = 1) : ∃ u, exec .sample t = .next u ∧ PlaysFromRam s u (k + 1) := by
  have hsel : t.pcm.sel = true := by rw [h.sel, hodd]; rfl
  have hplays : t.pcm.played < dmaTotal t.pcm.len := by rw [h.played, h.len]; exact hk
  have heven : (k + 1) % 2 = 0 := by omega
  have hcur : (BitVec.ofNat 16 (t.pcm.cur.toNat + 1)).toNat = s.pcm.cur.toNat + (k + 1) / 2 := by
    rw [BitVec.toNat_ofNat, h.cur]
    unfold dmaTotal at hk
    omega
  have hinside : s.pcm.cur.toNat + (k + 1) / 2 ≤ 0x1FFF := by unfold dmaTotal at hk; omega
  have hfetch := busRead_ram (s := t) (hcur ▸ hinside)
  have hbyte : ramByte t ((BitVec.ofNat 16 (t.pcm.cur.toNat + 1)).setWidth 13) =
      ramByte s (BitVec.ofNat 13 (s.pcm.cur.toNat + (k + 1) / 2)) := by
    rw [ramByte_congr h.ram, ← hcur, BitVec.ofNat_toNat]
  refine ⟨_, (sampleWithAFetchReadsTheNextByte t h.trig hsel hplays).1 _ _ _ hfetch, h.ram, h.len, h.trig,
    congrArg (· + 1) h.played, ?sel, hcur, hbyte⟩
  case sel => rw [heven]; rfl

end

/-- Within the playback each SAMPLE emits one nibble. -/
theorem PlaysFromRam.sample {s t : State} {k : Nat} (h : PlaysFromRam s t k) (hk : k < dmaTotal s.pcm.len)
    (hram : s.pcm.cur.toNat + dmaBytes s.pcm.len ≤ 0x1FFF) :
    ∃ u, exec .sample t = .next u ∧ PlaysFromRam s u (k + 1) := by
  obtain heven | hodd := Nat.mod_two_eq_zero_or_one k
  · exact h.sample_high hk heven
  · exact h.sample_low hk hram hodd

/-- `k` SAMPLEs emit `k` nibbles, by induction on `k`. -/
theorem applyTimes_sample_playsFromRam {s : State} {k : Nat} (hstart : PlaysFromRam s s 0)
    (hram : s.pcm.cur.toNat + dmaBytes s.pcm.len ≤ 0x1FFF) (hk : k ≤ dmaTotal s.pcm.len) :
    ∃ t, applyTimes .sample k s = .next t ∧ PlaysFromRam s t k := by
  induction k with
  | zero => exact ⟨s, rfl, hstart⟩
  | succ k ih =>
    obtain ⟨t, hbefore, ht⟩ := ih (Nat.le_of_succ_le hk)
    obtain ⟨u, hlast, hu⟩ := ht.sample hk hram
    exact ⟨u, (applyTimes_succ_of_next hbefore).trans hlast, hu⟩

/-- Settles O48: the playback nibble by nibble, and the SAMPLE after its last, which finds the total reached. -/
theorem pcmPlaybackEmitsTwoNibblesPerByte : Obligations.PcmPlaybackEmitsTwoNibblesPerByte := by
  intro s n hn htrig hplayed hsel hram hbyte
  obtain rfl : n = dmaBytes s.pcm.len := hn
  have htotal : 2 * dmaBytes s.pcm.len = dmaTotal s.pcm.len := Nat.mul_comm _ _
  have hstart : PlaysFromRam s s 0 := ⟨rfl, rfl, htrig, hplayed, hsel, rfl, hbyte⟩
  rw [htotal]
  refine ⟨fun k hk => ?plays, ?stops⟩
  case plays =>
    obtain ⟨t, ht, h⟩ := applyTimes_sample_playsFromRam hstart hram hk
    exact ⟨t, ht, h.trig, h.played, h.sel, h.cur, h.byte⟩
  case stops =>
    obtain ⟨t, ht, h⟩ := applyTimes_sample_playsFromRam hstart hram (Nat.le_refl _)
    have hend : dmaTotal t.pcm.len ≤ t.pcm.played := by rw [h.len, h.played]
    obtain ⟨-, hlast⟩ := sampleMixesTheFourChannels t _ _ (.inr (.inl ⟨h.trig, hend, rfl, rfl⟩))
    refine ⟨_, (applyTimes_succ_of_next ht).trans hlast, rfl, h.played, ?sel, ?cur⟩
    case sel => exact h.sel.trans (by rw [← htotal, Nat.mul_mod_right]; rfl)
    case cur => exact h.cur.trans (by rw [← htotal, Nat.mul_div_cancel_left _ (by decide)])

end Sys2Proof.Machine
end

section
/-! PROOFS. A READ is its bus read (40_bus_read.md R110, 20_memory.md R75), so what is said of a bus read is said of every
READ row: where the input `K` plays a part (10_state.md R48), and how an operation faults (60_exceptions.md R210). Of the
other rows, only SAMPLE and the trigger write look at the bus. -/

namespace Sys2Proof

/-! ### The READ rows (R110, R111 to R122) -/

/-- What a READ row asks of the bus; a row that is no READ asks for nothing. -/
def Instr.readAnswer (s : Machine.State) : Instr → Machine.Answer Byte
  | .rdRam a => Machine.readRam s a
  | .rdLcd a => Machine.readLcd s a
  | .rdCtrl => Machine.readCtrl s
  | .rdTimer => Machine.readTimer s
  | .rdTack => Machine.readTack s
  | .rdAack => Machine.readAack s
  | .rdIrqstat => Machine.readIrqstat s
  | .rdVram a => Machine.readVram s a
  | .rdRomBank a => Machine.readRomBank s a
  | .rdRomFixed a => Machine.readRomFixed s a
  | _ => Machine.readNothing s

theorem decodeReadRegister_isRead (c : Config) (a : Address) : (decodeReadRegister c a).isRead = true := by
  unfold decodeReadRegister
  split_ifs <;> rfl

theorem decodeRead_isRead (c : Config) (a : Address) : (decodeRead c a).isRead = true := by
  unfold decodeRead
  split_ifs with hram hreg
  · rfl
  · exact decodeReadRegister_isRead c a
  all_goals rfl

end Sys2Proof

namespace Sys2Proof.Machine

/-! ### A bus read and the READ row of its address (R75) -/

theorem exec_of_isRead {i : Instr} (h : i.isRead = true) (s : State) :
    exec i s = .next (finishRead s (i.readAnswer s)) := by
  cases i with
  | rdRam | rdLcd | rdCtrl | rdTimer | rdTack | rdAack | rdIrqstat | rdRegUnknown | rdUnmapped3 | rdVram | rdUnmapped6
  | rdRomBank | rdRomFixed => rfl
  | _ => cases h

/-- Inside the register window the bus and the decoder look for the register in one order. -/
theorem busReadRegister_eq_readAnswer (s : State) (a : Address) :
    busReadRegister s a = (decodeReadRegister s.cfg a).readAnswer s := by
  unfold busReadRegister decodeReadRegister
  split_ifs <;> rfl

theorem busRead_eq_readAnswer (s : State) (a : Address) : busRead s a = (decodeRead s.cfg a).readAnswer s := by
  unfold busRead decodeRead
  split_ifs with hram hreg
  · rfl
  · exact busReadRegister_eq_readAnswer s a
  all_goals rfl

/-- The READ of an address finishes what the bus answers there. -/
theorem exec_decodeRead (s : State) (a : Address) :
    exec (decodeRead s.cfg a) s = .next (finishRead s (busRead s a)) := by
  rw [exec_of_isRead (decodeRead_isRead s.cfg a), busRead_eq_readAnswer]

/-- Settles O22: the row the address decodes to. -/
theorem busReadIsTheReadOperation : Obligations.BusReadIsTheReadOperation := by
  intro s a
  refine ⟨decodeRead s.cfg a, (readIs_iff s.cfg a _).2 rfl, decodeRead_isRead s.cfg a, fun b d t hread => ?done,
    fun f hread => ?fault⟩
  case done => rw [exec_decodeRead, hread, finishRead_done]
  case fault => rw [exec_decodeRead, hread, finishRead_fault]

/-- A READ row answers with the state as it is or, at the two acknowledging registers, with `T.en` clear; or it faults. -/
theorem readAnswer_cases (i : Instr) (s : State) : (∃ b d, i.readAnswer s = .done b d s) ∨
    ((i = .rdTack ∨ i = .rdIrqstat) ∧ ∃ b d, i.readAnswer s = .done b d (disarmTimer s)) ∨
      ∃ f, i.readAnswer s = .fault f := by
  cases i
  case rdTack => exact .inr (.inl ⟨.inl rfl, _, _, rfl⟩)
  case rdIrqstat => exact .inr (.inl ⟨.inr rfl, _, _, rfl⟩)
  case rdRomBank a =>
    obtain ⟨-, hread⟩ | ⟨-, hread⟩ := romAt_cases s (romBankIndex s.bank a)
    · exact .inl ⟨_, _, hread⟩
    · exact .inr (.inr ⟨_, hread⟩)
  case rdRomFixed a => exact .inl ⟨_, _, readRomFixed_eq s a⟩
  all_goals exact .inl ⟨_, _, rfl⟩

/-- Settles O21: what a READ row finishes is one of those answers. -/
theorem readsChangeNothingButTheEnabledFlag : Obligations.ReadsChangeNothingButTheEnabledFlag := by
  intro i s t hread h
  rw [exec_of_isRead hread] at h
  cases h
  obtain ⟨b, d, heq⟩ | ⟨hi, b, d, heq⟩ | ⟨f, heq⟩ := readAnswer_cases i s
  · rw [heq]; exact ⟨rfl, .inl rfl⟩
  · rw [heq]; exact ⟨rfl, .inr ⟨rfl, hi⟩⟩
  · rw [heq]; exact ⟨rfl, .inl rfl⟩

/-! ### The input (R48) -/

section
variable (s : State) (k : Byte)

theorem romAt_withKeys (i : Nat) : romAt (s.withKeys k) i = (romAt s i).mapAfter (·.withKeys k) := by
  obtain ⟨hinside, hread⟩ | ⟨hbeyond, hread⟩ := romAt_cases s i
  · rw [hread]; exact romAt_inside hinside
  · rw [hread]; exact romAt_beyond hbeyond

/-- Every READ row but that of the controller answers without a look at the input. -/
theorem readAnswer_withKeys {i : Instr} (hi : i ≠ .rdCtrl) :
    i.readAnswer (s.withKeys k) = (i.readAnswer s).mapAfter (·.withKeys k) := by
  cases i
  case rdCtrl => exact absurd rfl hi
  case rdRomBank a => exact romAt_withKeys s k _
  case rdRomFixed a => exact romAt_withKeys s k _
  all_goals rfl

theorem busRead_withKeys {a : Address} (ha : ¬ ReadIs s.cfg a .rdCtrl) :
    busRead (s.withKeys k) a = (busRead s a).mapAfter (·.withKeys k) := by
  rw [busRead_eq_readAnswer, busRead_eq_readAnswer]
  exact readAnswer_withKeys s k fun hrow => ha ((readIs_iff _ _ _).2 hrow)

theorem finishRead_withKeys (r : Answer Byte) :
    finishRead (s.withKeys k) (r.mapAfter (·.withKeys k)) = (finishRead s r).withKeys k := by
  cases r <;> rfl

theorem finishFetchingWrite_withKeys (r : Answer Unit) :
    finishFetchingWrite (s.withKeys k) (r.mapAfter (·.withKeys k)) = (finishFetchingWrite s r).withKeys k := by
  cases r <;> rfl

theorem dmaStep_withKeys (ha : ¬ ReadIs s.cfg (s.pcm.cur + 1) .rdCtrl) :
    dmaStep (s.withKeys k) = (dmaStep s).mapAfter (·.withKeys k) := by
  by_cases htrig : s.pcm.trig = false
  case pos => rw [dmaStep_stopped htrig]; exact dmaStep_stopped (s := s.withKeys k) htrig
  by_cases hend : dmaTotal s.pcm.len ≤ s.pcm.played
  case pos => rw [dmaStep_ends htrig hend]; exact dmaStep_ends (s := s.withKeys k) htrig hend
  by_cases hsel : s.pcm.sel = false
  case pos => rw [dmaStep_high htrig hend hsel]; exact dmaStep_high (s := s.withKeys k) htrig hend hsel
  have hother := busRead_withKeys s k ha
  cases hfetch : busRead s (s.pcm.cur + 1) with
  | done b d t =>
    rw [hfetch] at hother
    rw [dmaStep_low_of_fetch_done htrig hend hsel hfetch]
    exact dmaStep_low_of_fetch_done (s := s.withKeys k) htrig hend hsel hother
  | fault f =>
    rw [hfetch] at hother
    rw [dmaStep_low_of_fetch_fault htrig hend hsel hfetch]
    exact dmaStep_low_of_fetch_fault (s := s.withKeys k) htrig hend hsel hother

theorem sampleState_withKeys (ha : ¬ ReadIs s.cfg (s.pcm.cur + 1) .rdCtrl) :
    sampleState (s.withKeys k) = (sampleState s).withKeys k := by
  have hother := dmaStep_withKeys (stepGenerators s) k ha
  cases hdma : dmaStep (stepGenerators s) with
  | done d diag t =>
    rw [hdma] at hother
    rw [sampleState_of_done hdma]
    exact sampleState_of_done (s := s.withKeys k) hother
  | fault f =>
    rw [hdma] at hother
    rw [sampleState_of_fault hdma]
    exact sampleState_of_fault (s := s.withKeys k) hother

theorem pcmWriteR4_withKeys (v : Byte) (ha : ¬ ReadIs s.cfg (pcmStart s.pcm) .rdCtrl) :
    pcmWriteR4 (s.withKeys k) v = (pcmWriteR4 s v).mapAfter (·.withKeys k) := by
  by_cases hv : v.toNat < 128
  case pos => rw [pcmWriteR4_of_no_trigger hv, pcmWriteR4_of_no_trigger hv]; rfl
  have hbit : 128 ≤ v.toNat := Nat.le_of_not_lt hv
  by_cases hstale : s.pcm.trig = true ∧ 0 < s.pcm.played
  case pos =>
    obtain ⟨htrig, hplayed⟩ := hstale
    rw [pcmWriteR4_of_retrigger hbit htrig hplayed]
    exact pcmWriteR4_of_retrigger (s := s.withKeys k) hbit htrig hplayed
  have hother := busRead_withKeys s k ha
  cases hfetch : busRead s (pcmStart s.pcm) with
  | done b d t =>
    rw [hfetch] at hother
    rw [pcmWriteR4_of_fetch_done hbit hstale hfetch]
    exact pcmWriteR4_of_fetch_done (s := s.withKeys k) hbit hstale hother
  | fault f =>
    rw [hfetch] at hother
    rw [pcmWriteR4_of_fetch_fault hbit hstale hfetch]
    exact pcmWriteR4_of_fetch_fault (s := s.withKeys k) hbit hstale hother

theorem writeTimer_withKeys (v : Byte) : writeTimer (s.withKeys k) v = (writeTimer s v).withKeys k := by
  by_cases hfires : v = 0 ∧ s.timer.en = true
  · obtain ⟨hzero, hen⟩ := hfires
    rw [writeTimer_fires hzero hen]
    exact writeTimer_fires (s := s.withKeys k) hzero hen
  · rw [writeTimer_quiet hfires]
    exact writeTimer_quiet (s := s.withKeys k) hfires

/-- TICK looks at the timer alone. -/
theorem exec_tick_withKeys {t : State} (h : exec .tick s = .next t) :
    exec .tick (s.withKeys k) = .next (t.withKeys k) := by
  by_cases hfires : s.timer.en = true ∧ s.timer.cnt = 0
  · obtain ⟨hen, hcnt⟩ := hfires
    rw [exec_tick_fires hen hcnt] at h
    cases h
    exact exec_tick_fires (s := s.withKeys k) hen hcnt
  · rw [exec_tick_counts hfires] at h
    cases h
    exact exec_tick_counts (s := s.withKeys k) hfires

end

/-- Settles O51: every READ by its bus answer, the two rows that fetch by theirs; the other rows do not look at `K`. -/
theorem buttonsMatterOnlyToControllerReads : Obligations.ButtonsMatterOnlyToControllerReads := by
  intro i s t k h hctrl hsample htrigger
  by_cases hread : i.isRead = true
  case pos =>
    rw [exec_of_isRead hread] at h
    cases h
    rw [exec_of_isRead hread, readAnswer_withKeys s k hctrl, finishRead_withKeys]
  cases i
  case wrTimer v => cases h; rw [exec_wrTimer, writeTimer_withKeys]; rfl
  case wrPcmR4 v =>
    cases h
    rw [exec_wrPcmR4, pcmWriteR4_withKeys s k v (htrigger v rfl), finishFetchingWrite_withKeys]
  case tick => exact exec_tick_withKeys s k h
  case sample => cases h; rw [exec_sample, sampleState_withKeys s k (hsample rfl)]
  case rdRam | rdLcd | rdCtrl | rdTimer | rdTack | rdAack | rdIrqstat | rdRegUnknown | rdUnmapped3 | rdVram
    | rdUnmapped6 | rdRomBank | rdRomFixed => exact absurd rfl hread
  all_goals cases h; rfl

/-! ### Faults (R210, R212) -/

/-- The fault of a read at or beyond the end of the ROM. -/
def IsRomFault (s : State) (f : Fault) : Prop := ∃ n, f = .romIndexOutOfRange n ∧ s.cfg.rom.size ≤ n

section
variable {s : State} {f : Fault}

theorem romAt_fault {i : Nat} (h : romAt s i = .fault f) : IsRomFault s f := by
  obtain ⟨-, hread⟩ | ⟨hbeyond, hread⟩ := romAt_cases s i
  · rw [hread] at h; cases h
  · rw [hread] at h; cases h; exact ⟨i, rfl, hbeyond⟩

theorem pcmWriteR4_fault {v : Byte} (h : pcmWriteR4 s v = .fault f) : IsRomFault s f := by
  obtain heq | heq | ⟨_, _, heq⟩ | ⟨_, heq⟩ | ⟨i, hbeyond, heq⟩ := pcmWriteR4_cases s v
  all_goals rw [heq] at h; cases h
  exact ⟨i, rfl, hbeyond⟩

theorem dmaStep_fault (h : dmaStep s = .fault f) : IsRomFault s f := by
  obtain heq | heq | ⟨-, heq⟩ | ⟨-, _, _, heq⟩ | ⟨-, _, heq⟩ | ⟨i, hbeyond, heq⟩ := dmaStep_cases s
  all_goals rw [heq] at h; cases h
  exact ⟨i, rfl, hbeyond⟩

/-- A result that reports a fault comes from an answer that is one. -/
theorem fault_of_finishRead {r : Answer Byte} (h : (finishRead s r).out = .faulted f) : r = .fault f := by
  cases r with
  | done b d t => cases h
  | fault e => cases h; rfl

theorem fault_of_finishFetchingWrite {r : Answer Unit} (h : (finishFetchingWrite s r).out = .faulted f) :
    r = .fault f := by
  cases r with
  | done b d t => cases h
  | fault e => cases h; rfl

theorem fault_of_sampleState (h : (sampleState s).out = .faulted f) : dmaStep (stepGenerators s) = .fault f := by
  cases hdma : dmaStep (stepGenerators s) with
  | done d diag t => rw [sampleState_of_done hdma] at h; cases h
  | fault e => rw [sampleState_of_fault hdma] at h; cases h; rfl

end

/-- Settles O52: the three rows that can fault by the answer they finish; the fixed window never faults, and the result of
every other row is no fault. -/
theorem faultingOperationHasNoEffect : Obligations.FaultingOperationHasNoEffect := by
  intro i s t f h hout
  cases i
  case rdRomBank a =>
    cases h
    have hfault := fault_of_finishRead hout
    refine ⟨?_, romAt_fault hfault, .inl ⟨a, rfl⟩⟩
    rw [hfault, finishRead_fault]
  case wrPcmR4 v =>
    cases h
    have hfault := fault_of_finishFetchingWrite hout
    refine ⟨?_, pcmWriteR4_fault hfault, .inr (.inl ⟨v, rfl⟩)⟩
    rw [hfault, finishFetchingWrite_fault]
  case sample =>
    cases h
    have hfault := fault_of_sampleState hout
    exact ⟨sampleState_of_fault hfault, dmaStep_fault (s := stepGenerators s) hfault, .inr (.inr rfl)⟩
  case rdRomFixed a =>
    rw [exec_rdRomFixed_byte] at h
    cases h
    cases hout
  all_goals cases h; cases hout

/-- No arm of `exec` stops. -/
theorem exec_next (i : Instr) (s : State) : ∃ t, exec i s = .next t := by
  cases i <;> exact ⟨_, rfl⟩

/-- Settles O53: every arm answers a next state, and one that reports a fault is one of the three. -/
theorem noInstructionStopsTheMachine : Obligations.NoInstructionStopsTheMachine := by
  intro i s
  obtain ⟨t, ht⟩ := exec_next i s
  refine ⟨t, ht, fun hbank htrigger hsample f hout => ?_⟩
  obtain ⟨-, -, ⟨a, hi⟩ | ⟨v, hi⟩ | hi⟩ := faultingOperationHasNoEffect i s t f ht hout
  · exact hbank a hi
  · exact htrigger v hi
  · exact hsample hi

end Sys2Proof.Machine
end

section
/-! PROOFS. A step, and the schedule it takes its operations from (20_memory.md R80, 30_encoding.md R103, R104). A step does
nothing, or applies the decoded instruction to the state the fetch leaves, or refuses the word. A script's schedule is its
expansion word by word. -/

namespace Sys2Proof.Machine

/-! ### A step -/

section
variable {s : State}

theorem step_idle (h : s.pending = []) : step s = .next s := by
  rw [step, fetchRequest, h]

variable {r : Request} {rest : List Request} (h : s.pending = r :: rest)
include h

theorem step_decoded {i : Instr} (hdecode : decode s.cfg r.word = .ok i) :
    step s = exec i ((s.withPending rest).withKeys r.keys) := by
  rw [step, fetchRequest, h]
  simp only [hdecode]

theorem step_refused {e : DecodeError} (hdecode : decode s.cfg r.word = .error e) :
    step s = .refused .reservedKind := by
  rw [step, fetchRequest, h]
  simp only [hdecode]

end

/-- A step that goes on leaves the state, or applies an instruction with the request taken off the schedule. -/
theorem step_cases {s t : State} (h : step s = .next t) :
    t = s ∨ ∃ (i : Instr) (r : Request) (rest : List Request),
      exec i ((s.withPending rest).withKeys r.keys) = .next t := by
  cases hpending : s.pending with
  | nil =>
    rw [step_idle hpending] at h
    cases h
    exact .inl rfl
  | cons r rest =>
    cases hdecode : decode s.cfg r.word with
    | ok i =>
      rw [step_decoded hpending hdecode] at h
      exact .inr ⟨i, r, rest, h⟩
    | error e =>
      rw [step_refused hpending hdecode] at h
      cases h

/-- Settles O9: the pending word decodes, so the step applies its instruction. -/
theorem stepRunsTheDecodedInstruction : Obligations.StepRunsTheDecodedInstruction :=
  fun _ _ _ _ hpending hdecode => step_decoded hpending hdecode

/-- Settles O10: nothing pending, or a word that the decoder refuses. -/
theorem stepWithoutAnOperationChangesNothing : Obligations.StepWithoutAnOperationChangesNothing :=
  ⟨fun _ => step_idle, fun s _ _ hpending hkind => step_refused hpending (decode_reservedKind s.cfg hkind)⟩

/-! ### The schedule of a script -/

/-- Each word of a schedule reads back as the operation it was made for. -/
theorem scheduleOf_operations (k : Byte) (ls : List ScriptLine) :
    (scheduleOf k ls).map (fun r => (decodeOperation r.word, r.keys)) =
      (expandScript k ls).map (fun p => (.ok p.1, p.2)) := by
  rw [scheduleOf, List.map_map]
  refine List.map_congr_left fun p _ => ?_
  rw [Function.comp_apply, decodeOperation_word]

/-- `WR16` writes the low byte and then the high byte, at the address after it. -/
theorem expand_write16 (k : Byte) (a : Address) (w : BitVec 16) : (ScriptLine.write16 a w).expand k =
    [(.write a (BitVec.ofNat 8 w.toNat), k), (.write (BitVec.ofNat 16 (a.toNat + 1)) (BitVec.ofNat 8 (w.toNat / 256)), k)] := by
  have hlow : w.extractLsb' 0 8 = BitVec.ofNat 8 w.toNat := by rw [BitVec.extractLsb', Nat.shiftRight_zero]
  have hhigh : w.extractLsb' 8 8 = BitVec.ofNat 8 (w.toNat / 256) := by
    rw [BitVec.extractLsb', Nat.shiftRight_eq_div_pow]
  rw [ScriptLine.expand, hlow, hhigh, address_add_one]

/-- Settles O11: the words read back in order, and the expansion of each kind of line in front of the others'. -/
theorem scheduleSpellsTheScript : Obligations.ScheduleSpellsTheScript := by
  refine ⟨scheduleOf_operations, fun k ls => ⟨fun o => rfl, fun n => rfl, fun n => rfl, fun a w => ?write16,
    fun k' => rfl⟩⟩
  case write16 =>
    rw [expandScript, expand_write16]
    rfl

end Sys2Proof.Machine
end

section
/-! PROOFS. The rules of the whole machine (10_state.md R49, 42_timer_irq.md R152, 60_exceptions.md R214). `Effect` says once
what an instruction can do to the state, one constructor per part of the state it changes, with what is known of the new
value; the rule about each part of the state is then a reading of that list. -/

namespace Sys2Proof.Machine

/-! ### Each part of the state keeps its invariant (R49) -/

theorem timerCount_good {t : Timer} (h : t.Good) : (timerCount t).Good := by
  obtain ⟨hmultiple, hle⟩ := h
  cases hslow : t.slow
  case false => rw [timerCount_fast hslow]; exact ⟨hmultiple, hle⟩
  case true =>
    by_cases hacc : t.acc + 256 < 16384
    · rw [timerCount_slow_below hslow hacc]
      exact ⟨by simp only; omega, by simp only; omega⟩
    · rw [timerCount_slow_reaches hslow (Nat.le_of_not_lt hacc)]
      exact ⟨rfl, Nat.zero_le _⟩

section
variable {q : Square} (v : Byte)

/-- The size of the period held, whatever number it is, with the phase restarted. -/
theorem restarted_good {n : Nat} (hn : n = squareSize (squarePeriod q)) (hlen : q.len ≤ 256) :
    Square.Good { q with size := n, pos := 0 } :=
  ⟨id, fun _ => rfl, hn, hlen⟩

theorem squareRecompute_good (hlen : q.len ≤ 256) : (squareRecompute q).Good := restarted_good rfl hlen

theorem squareWritePlo_good (h : q.Good) : (squareWritePlo q v).Good := by
  obtain ⟨-, -, -, hlen⟩ := h
  exact squareRecompute_good hlen

theorem squareWritePhi_good (h : q.Good) : (squareWritePhi q v).Good := by
  obtain ⟨-, -, -, hlen⟩ := h
  exact squareRecompute_good hlen

theorem squareWriteControl_good (h : q.Good) : (squareWriteControl q v).Good := h

theorem squareWriteLength_good (h : q.Good) : (squareWriteLength q v).Good := by
  obtain ⟨hpos, hzero, hsize, -⟩ := h
  exact ⟨hpos, hzero, hsize, v.isLt⟩

/-- Inside the waveform the position stays below the size, a wrap restarts it, and the length does not grow. -/
theorem squareStep_good (h : q.Good) : (squareStep q).2.Good := by
  by_cases hinert : q.en = false ∨ q.size = 0
  case pos => rw [squareStep_inert hinert]; exact h
  obtain ⟨hpos, hzero, hsize, hlen⟩ := h
  have hen : q.en = true := Bool.eq_true_of_not_eq_false fun he => hinert (.inl he)
  have hplays : 0 < q.size := Nat.pos_of_ne_zero fun hs => hinert (.inr hs)
  rw [squareStep_active hen hplays]
  by_cases hinside : q.pos + 1 < q.size
  · rw [squareAdvance_inside hinside]
    exact ⟨fun _ => hinside, fun hs => absurd hs (Nat.ne_of_gt hplays), hsize, hlen⟩
  · rw [squareAdvance_wrap (Nat.le_of_not_lt hinside)]
    exact ⟨id, fun _ => rfl, hsize, (Nat.sub_le _ _).trans hlen⟩

end

section
variable (c : Config) {n : Noise} (v : Byte)

theorem noiseWriteR0_good (h : n.Good) : (noiseWriteR0 n v).Good := h

theorem noiseWriteR1_good (h : n.Good) : (noiseWriteR1 n v).Good := h

theorem lfsrSeed_good (m15 : Bool) : LfsrGood m15 (lfsrSeed m15) := by
  cases m15
  · exact ⟨by decide, fun _ => by decide⟩
  · exact ⟨by decide, fun hmode => by cases hmode⟩

theorem noiseWriteR2_good : (noiseWriteR2 c n v).Good := lfsrSeed_good (noiseM15 c v)

theorem noiseUpdate_good (h : n.Good) : (noiseUpdate n).Good := by
  by_cases hcont : n.cont = true
  · rw [noiseUpdate_continuous hcont]; exact lfsrUpdate_good h
  · rw [noiseUpdate_gated hcont]; exact lfsrUpdate_good h

theorem noiseStep_good (h : n.Good) : (noiseStep c n).2.Good := by
  cases hen : n.en
  case false => rw [noiseStep_inert c hen]; exact h
  case true =>
    rw [noiseStep_active c hen]
    by_cases hinside : n.pos + 1 < noisePeriod c n.freq
    · rw [noiseAdvance_inside hinside]; exact h
    · rw [noiseAdvance_reaches (Nat.le_of_not_lt hinside)]; exact noiseUpdate_good h

end

section
variable {s : State} (h : s.pcm.Good)
include h

/-- A trigger keeps the count of nibbles or restarts it at 0. -/
theorem triggerWrite_pcmGood (v : Byte) : (finishFetchingWrite s (pcmWriteR4 s v)).pcm.Good := by
  obtain heq | heq | ⟨_, _, heq⟩ | ⟨_, heq⟩ | ⟨_, _, heq⟩ := pcmWriteR4_cases s v
  · rw [heq]; exact h
  · rw [heq]; exact h
  · rw [heq]; exact Nat.zero_le _
  · rw [heq]; exact Nat.zero_le _
  · rw [heq]; exact h

/-- The count of nibbles grows below the total alone, and no total is above 8192. -/
theorem sampleState_pcmGood : (sampleState s).pcm.Good := by
  have hnext : s.pcm.played < dmaTotal s.pcm.len → s.pcm.played + 1 ≤ 8192 :=
    fun hplays => Nat.le_trans hplays (dmaTotal_le s.pcm.len)
  obtain heq | heq | ⟨hplays, heq⟩ | ⟨hplays, _, _, heq⟩ | ⟨hplays, _, heq⟩ | ⟨_, _, heq⟩ :=
    dmaStep_cases (stepGenerators s)
  · rw [sampleState_of_done heq, State.withOut_pcm, stepGenerators_pcm]; exact h
  · rw [sampleState_of_done heq, State.withOut_pcm, State.withPcm_pcm, stepGenerators_pcm]; exact h
  · rw [sampleState_of_done heq, State.withOut_pcm, State.withPcm_pcm]; exact hnext hplays
  · rw [sampleState_of_done heq, State.withOut_pcm, State.withPcm_pcm]; exact hnext hplays
  · rw [sampleState_of_done heq, State.withOut_pcm, State.withPcm_pcm]; exact hnext hplays
  · rw [sampleState_of_fault heq]; exact h

end

end Sys2Proof.Machine

namespace Sys2Proof

/-! ### What an instruction can do to the state -/

/-- A write of one of the four registers of square channel 0. -/
def Instr.WritesSq0 (i : Instr) : Prop :=
  ∃ v, i = .wrSq0R0 v ∨ i = .wrSq0R1 v ∨ i = .wrSq0R2 v ∨ i = .wrSq0R3 v

/-- A write of one of the four registers of square channel 1. -/
def Instr.WritesSq1 (i : Instr) : Prop :=
  ∃ v, i = .wrSq1R0 v ∨ i = .wrSq1R1 v ∨ i = .wrSq1R2 v ∨ i = .wrSq1R3 v

/-- A write of one of the three registers of the noise channel. -/
def Instr.WritesNoise (i : Instr) : Prop := ∃ v, i = .wrNoiseR0 v ∨ i = .wrNoiseR1 v ∨ i = .wrNoiseR2 v

/-- A write of one of the five registers of the PCM channel. -/
def Instr.WritesPcm (i : Instr) : Prop :=
  ∃ v, i = .wrPcmR0 v ∨ i = .wrPcmR1 v ∨ i = .wrPcmR2 v ∨ i = .wrPcmR3 v ∨ i = .wrPcmR4 v

/-- `a` is one of the two registers whose read acknowledges the timer (40_bus_read.md R115, R117). -/
def ReadAcknowledges (c : Config) (a : Address) : Prop := ReadIs c a .rdTack ∨ ReadIs c a .rdIrqstat

end Sys2Proof

namespace Sys2Proof.Machine

/-- `s` with other sound channels. -/
def State.withSound (s : State) (q0 q1 : Square) (n : Noise) (d : Pcm) : State :=
  { s with sq0 := q0, sq1 := q1, noise := n, pcm := d }

/-- What SAMPLE gives the four channels, as one update. -/
theorem stepGenerators_withPcm (s : State) (d : Pcm) : (stepGenerators s).withPcm d =
    s.withSound (squareStep s.sq0).2 (squareStep s.sq1).2 (noiseStep s.cfg s.noise).2 d := rfl

/-- `Effect s i t`: from `s` the instruction `i` may go on in `t`. The result is any; of a new value of the timer or of a sound
channel only what the rules below need is said, first of all that it keeps the part's invariant. -/
inductive Effect (s : State) : Instr → State → Prop
  | result (i : Instr) (r : Response) : Effect s i (s.withOut r)
  | disarm (i : Instr) (r : Response) (hi : i = .rdTack ∨ i = .rdIrqstat) : Effect s i ((disarmTimer s).withOut r)
  | ram (a : MemIndex) (v : Byte) (r : Response) : Effect s (.wrRam a v) ((storeRam s a v).withOut r)
  | vram (a : MemIndex) (v : Byte) (r : Response) : Effect s (.wrVram a v) ((storeVram s a v).withOut r)
  | lcd (a : BitVec 3) (v : Byte) (r : Response) : Effect s (.wrLcd a v) ((writeLcd s a v).withOut r)
  | sysctl (v : Byte) (r : Response) : Effect s (.wrSysctl v) ((writeSysctl s v).withOut r)
  | timerSet (v : Byte) (r : Response) :
      Effect s (.wrTimer v) ((s.withTimer { s.timer with cnt := v, acc := 0 }).withOut r)
  | timerFires (r : Response) (hen : s.timer.en = true) :
      Effect s (.wrTimer 0) (((s.withTimer { s.timer with cnt := 0, acc := 0, en := false }).withIrqPend true).withOut r)
  | tickFires (r : Response) (hen : s.timer.en = true) (hcnt : s.timer.cnt = 0) :
      Effect s .tick (((s.withTimer { s.timer with en := false }).withIrqPend true).withOut r)
  | tickCounts (x : Timer) (r : Response) (hx : s.timer.Good → x.Good) (hen : x.en = s.timer.en) :
      Effect s .tick ((s.withTimer x).withOut r)
  | takeIrq (r : Response) : Effect s .takeIrq ((s.withIrqPend false).withOut r)
  | sq0 (i : Instr) (q : Square) (r : Response) (hi : i.WritesSq0) (hq : s.sq0.Good → q.Good) :
      Effect s i ((s.withSq0 q).withOut r)
  | sq1 (i : Instr) (q : Square) (r : Response) (hi : i.WritesSq1) (hq : s.sq1.Good → q.Good) :
      Effect s i ((s.withSq1 q).withOut r)
  | noise (i : Instr) (n : Noise) (r : Response) (hi : i.WritesNoise) (hn : s.noise.Good → n.Good) :
      Effect s i ((s.withNoise n).withOut r)
  | pcm (i : Instr) (d : Pcm) (r : Response) (hi : i.WritesPcm) (hd : s.pcm.Good → d.Good) :
      Effect s i ((s.withPcm d).withOut r)
  | triggerDisarm (v : Byte) (d : Pcm) (r : Response) (hd : s.pcm.Good → d.Good)
      (ha : ReadAcknowledges s.cfg (s.pcm.ahi ++ s.pcm.alo)) :
      Effect s (.wrPcmR4 v) (((disarmTimer s).withPcm d).withOut r)
  | sample (q0 q1 : Square) (n : Noise) (d : Pcm) (r : Response) (h0 : s.sq0.Good → q0.Good)
      (h1 : s.sq1.Good → q1.Good) (hn : s.noise.Good → n.Good) (hd : s.pcm.Good → d.Good) :
      Effect s .sample ((s.withSound q0 q1 n d).withOut r)
  | sampleDisarm (q0 q1 : Square) (n : Noise) (d : Pcm) (r : Response) (h0 : s.sq0.Good → q0.Good)
      (h1 : s.sq1.Good → q1.Good) (hn : s.noise.Good → n.Good) (hd : s.pcm.Good → d.Good)
      (ha : ReadAcknowledges s.cfg (s.pcm.cur + 1)) :
      Effect s .sample (((disarmTimer s).withSound q0 q1 n d).withOut r)
  | reset : Effect s .reset (resetState s)

section
variable (s : State)

theorem triggerWrite_isEffect (v : Byte) : Effect s (.wrPcmR4 v) (finishFetchingWrite s (pcmWriteR4 s v)) := by
  have hgood : s.pcm.Good → (finishFetchingWrite s (pcmWriteR4 s v)).pcm.Good := fun h => triggerWrite_pcmGood h v
  obtain ⟨r, d, hplain | ⟨hdisarmed, ha⟩⟩ := triggerWrite_effect s v
  · rw [hplain] at hgood ⊢
    exact .pcm _ d r ⟨v, .inr (.inr (.inr (.inr rfl)))⟩ hgood
  · rw [hdisarmed] at hgood ⊢
    exact .triggerDisarm v d r hgood ha

theorem sampleState_isEffect : Effect s .sample (sampleState s) := by
  have hgood : s.pcm.Good → (sampleState s).pcm.Good := sampleState_pcmGood
  obtain ⟨r, hfault | ⟨d, hplain | ⟨hdisarmed, ha⟩⟩⟩ := sampleState_effect s
  · rw [hfault]
    exact .result _ r
  · rw [hplain] at hgood ⊢
    rw [stepGenerators_withPcm]
    exact .sample _ _ _ d r squareStep_good squareStep_good (noiseStep_good s.cfg) hgood
  · rw [hdisarmed] at hgood ⊢
    rw [stepGenerators_withPcm]
    exact .sampleDisarm _ _ _ d r squareStep_good squareStep_good (noiseStep_good s.cfg) hgood ha

theorem writeTimer_isEffect (v : Byte) (r : Response) : Effect s (.wrTimer v) ((writeTimer s v).withOut r) := by
  by_cases hfires : v = 0 ∧ s.timer.en = true
  · obtain ⟨rfl, hen⟩ := hfires
    rw [writeTimer_fires rfl hen]
    exact .timerFires r hen
  · rw [writeTimer_quiet hfires]
    exact .timerSet v r

theorem execTick_isEffect {t : State} (h : execTick s = .next t) : Effect s .tick t := by
  obtain ⟨hen, hcnt, hfires⟩ | ⟨-, hcounts⟩ := execTick_effect s
  · rw [hfires] at h
    cases h
    exact .tickFires _ hen hcnt
  · rw [hcounts] at h
    cases h
    obtain ⟨hen, -⟩ := timerCount_flags s.timer
    exact .tickCounts _ _ timerCount_good hen

theorem readRomBank_isEffect (a : BitVec 14) : Effect s (.rdRomBank a) (finishRead s (readRomBank s a)) := by
  obtain ⟨r, hr⟩ := readRomBank_effect s a
  rw [hr]
  exact .result _ r

theorem readRomFixed_isEffect (a : BitVec 14) : Effect s (.rdRomFixed a) (finishRead s (readRomFixed s a)) := by
  obtain ⟨r, hr⟩ := readRomFixed_effect s a
  rw [hr]
  exact .result _ r

end

/-- The list is complete. -/
theorem exec_effect {i : Instr} {s t : State} (h : exec i s = .next t) : Effect s i t := by
  cases i
  case rdTack => cases h; exact .disarm _ _ (.inl rfl)
  case rdIrqstat => cases h; exact .disarm _ _ (.inr rfl)
  case rdRomBank a => cases h; exact readRomBank_isEffect s a
  case rdRomFixed a => cases h; exact readRomFixed_isEffect s a
  case wrRam a v => cases h; exact .ram a v _
  case wrVram a v => cases h; exact .vram a v _
  case wrLcd a v => cases h; exact .lcd a v _
  case wrSysctl v => cases h; exact .sysctl v _
  case wrTimer v => cases h; exact writeTimer_isEffect s v _
  case wrSq0R0 v => cases h; exact .sq0 _ _ _ ⟨v, .inl rfl⟩ (squareWritePlo_good v)
  case wrSq0R1 v => cases h; exact .sq0 _ _ _ ⟨v, .inr (.inl rfl)⟩ (squareWritePhi_good v)
  case wrSq0R2 v => cases h; exact .sq0 _ _ _ ⟨v, .inr (.inr (.inl rfl))⟩ (squareWriteControl_good v)
  case wrSq0R3 v => cases h; exact .sq0 _ _ _ ⟨v, .inr (.inr (.inr rfl))⟩ (squareWriteLength_good v)
  case wrSq1R0 v => cases h; exact .sq1 _ _ _ ⟨v, .inl rfl⟩ (squareWritePlo_good v)
  case wrSq1R1 v => cases h; exact .sq1 _ _ _ ⟨v, .inr (.inl rfl)⟩ (squareWritePhi_good v)
  case wrSq1R2 v => cases h; exact .sq1 _ _ _ ⟨v, .inr (.inr (.inl rfl))⟩ (squareWriteControl_good v)
  case wrSq1R3 v => cases h; exact .sq1 _ _ _ ⟨v, .inr (.inr (.inr rfl))⟩ (squareWriteLength_good v)
  case wrNoiseR0 v => cases h; exact .noise _ _ _ ⟨v, .inl rfl⟩ (noiseWriteR0_good v)
  case wrNoiseR1 v => cases h; exact .noise _ _ _ ⟨v, .inr (.inl rfl)⟩ (noiseWriteR1_good v)
  case wrNoiseR2 v => cases h; exact .noise _ _ _ ⟨v, .inr (.inr rfl)⟩ fun _ => noiseWriteR2_good s.cfg v
  case wrPcmR0 v => cases h; exact .pcm _ _ _ ⟨v, .inl rfl⟩ id
  case wrPcmR1 v => cases h; exact .pcm _ _ _ ⟨v, .inr (.inl rfl)⟩ id
  case wrPcmR2 v => cases h; exact .pcm _ _ _ ⟨v, .inr (.inr (.inl rfl))⟩ id
  case wrPcmR3 v => cases h; exact .pcm _ _ _ ⟨v, .inr (.inr (.inr (.inl rfl)))⟩ id
  case wrPcmR4 v => cases h; exact triggerWrite_isEffect s v
  case tick => exact execTick_isEffect s h
  case takeIrq => cases h; exact .takeIrq _
  case sample => cases h; exact sampleState_isEffect s
  case reset => cases h; exact .reset
  -- The other rows return a result and do nothing else.
  all_goals cases h; exact .result _ _

/-! ### The invariants (R49) -/

section
variable {s : State} (h : s.Inv)
include h

theorem withRam_inv {x : Memory} (hx : Memory.wf x = true) : (s.withRam x).Inv := by
  obtain ⟨-, hvram, htimer, hsq0, hsq1, hnoise, hpcm⟩ := h
  exact ⟨hx, hvram, htimer, hsq0, hsq1, hnoise, hpcm⟩

theorem withVram_inv {x : Memory} (hx : Memory.wf x = true) : (s.withVram x).Inv := by
  obtain ⟨hram, -, htimer, hsq0, hsq1, hnoise, hpcm⟩ := h
  exact ⟨hram, hx, htimer, hsq0, hsq1, hnoise, hpcm⟩

theorem withTimer_inv {x : Timer} (hx : x.Good) : (s.withTimer x).Inv := by
  obtain ⟨hram, hvram, -, hsq0, hsq1, hnoise, hpcm⟩ := h
  exact ⟨hram, hvram, hx, hsq0, hsq1, hnoise, hpcm⟩

theorem withSq0_inv {x : Square} (hx : x.Good) : (s.withSq0 x).Inv := by
  obtain ⟨hram, hvram, htimer, -, hsq1, hnoise, hpcm⟩ := h
  exact ⟨hram, hvram, htimer, hx, hsq1, hnoise, hpcm⟩

theorem withSq1_inv {x : Square} (hx : x.Good) : (s.withSq1 x).Inv := by
  obtain ⟨hram, hvram, htimer, hsq0, -, hnoise, hpcm⟩ := h
  exact ⟨hram, hvram, htimer, hsq0, hx, hnoise, hpcm⟩

theorem withNoise_inv {x : Noise} (hx : x.Good) : (s.withNoise x).Inv := by
  obtain ⟨hram, hvram, htimer, hsq0, hsq1, -, hpcm⟩ := h
  exact ⟨hram, hvram, htimer, hsq0, hsq1, hx, hpcm⟩

theorem withPcm_inv {x : Pcm} (hx : x.Good) : (s.withPcm x).Inv := by
  obtain ⟨hram, hvram, htimer, hsq0, hsq1, hnoise, -⟩ := h
  exact ⟨hram, hvram, htimer, hsq0, hsq1, hnoise, hx⟩

theorem withOut_inv (r : Response) : (s.withOut r).Inv := h

/-- The enabled flag and the prescaler select are in no invariant. -/
theorem timerFlags_inv (en slow : Bool) : (s.withTimer { s.timer with en := en, slow := slow }).Inv := h

theorem withSound_inv {q0 q1 : Square} {n : Noise} {d : Pcm} (h0 : q0.Good) (h1 : q1.Good) (hn : n.Good) (hd : d.Good) :
    (s.withSound q0 q1 n d).Inv := by
  obtain ⟨hram, hvram, htimer, -, -, -, -⟩ := h
  exact ⟨hram, hvram, htimer, h0, h1, hn, hd⟩

end

theorem squareReset_good : Square.reset.Good := ⟨by decide, by decide, by decide, by decide⟩

theorem noiseReset_good : Noise.reset.Good := ⟨by decide, by decide⟩

theorem resetState_inv (s : State) : (resetState s).Inv :=
  ⟨rfl, rfl, ⟨rfl, Nat.zero_le _⟩, squareReset_good, squareReset_good, noiseReset_good, Nat.zero_le _⟩

/-- From every state that meets them, an instruction keeps the invariants. -/
theorem exec_inv {i : Instr} {s t : State} (hinv : s.Inv) (h : exec i s = .next t) : t.Inv := by
  have ⟨hram, hvram, htimer, hsq0, hsq1, hnoise, hpcm⟩ := hinv
  have hdisarmed : (disarmTimer s).Inv := timerFlags_inv hinv false s.timer.slow
  cases exec_effect h with
  | disarm _ r _ => exact withOut_inv hdisarmed r
  | ram a v r => exact withOut_inv (withRam_inv hinv (Memory.write_wf a v hram)) r
  | vram a v r => exact withOut_inv (withVram_inv hinv (Memory.write_wf a v hvram)) r
  | sysctl v r => exact withOut_inv (timerFlags_inv hinv _ _) r
  | timerSet v r => exact withOut_inv (withTimer_inv hinv ⟨rfl, Nat.zero_le _⟩) r
  | timerFires r _ => exact withOut_inv (withTimer_inv hinv ⟨rfl, Nat.zero_le _⟩) r
  | tickFires r _ _ => exact withOut_inv hdisarmed r
  | tickCounts x r hx _ => exact withOut_inv (withTimer_inv hinv (hx htimer)) r
  | sq0 _ q r _ hq => exact withOut_inv (withSq0_inv hinv (hq hsq0)) r
  | sq1 _ q r _ hq => exact withOut_inv (withSq1_inv hinv (hq hsq1)) r
  | noise _ n r _ hn => exact withOut_inv (withNoise_inv hinv (hn hnoise)) r
  | pcm _ d r _ hd => exact withOut_inv (withPcm_inv hinv (hd hpcm)) r
  | triggerDisarm v d r hd _ => exact withOut_inv (withPcm_inv hdisarmed (hd hpcm)) r
  | sample q0 q1 n d r h0 h1 hn hd =>
    exact withOut_inv (withSound_inv hinv (h0 hsq0) (h1 hsq1) (hn hnoise) (hd hpcm)) r
  | sampleDisarm q0 q1 n d r h0 h1 hn hd _ =>
    exact withOut_inv (withSound_inv hdisarmed (h0 hsq0) (h1 hsq1) (hn hnoise) (hd hpcm)) r
  | reset => exact resetState_inv s
  | result | lcd | takeIrq => exact hinv

/-- Settles O59: a step does nothing, or applies an instruction to a state that differs in the schedule and the input,
which are in no invariant. -/
theorem everyStepKeepsTheInvariants : Obligations.EveryStepKeepsTheInvariants := by
  intro s t hinv h
  obtain rfl | ⟨i, r, rest, hexec⟩ := step_cases h
  · exact hinv
  · exact exec_inv (s := (s.withPending rest).withKeys r.keys) hinv hexec

/-- Settles O60: the elements at reset are those of `resetState`. -/
theorem resetStateMeetsTheInvariants : Obligations.ResetStateMeetsTheInvariants := resetState_inv State.reset

/-! ### `T.en` and IRQ_PEND (42_timer_irq.md R152, 60_exceptions.md R214) -/

section
variable {i : Instr} {s t : State} (h : exec i s = .next t)
include h

theorem enabledFlag_set (hoff : s.timer.en = false) (hon : t.timer.en = true) :
    ∃ v, i = .wrSysctl v ∧ v &&& s.cfg.sysctlIrqMask = 0x02#8 := by
  cases exec_effect h with
  | sysctl v r => exact ⟨v, rfl, of_decide_eq_true hon⟩
  | tickCounts x r _ hen => exact absurd (hoff.symm.trans (hen.symm.trans hon)) Bool.false_ne_true
  -- The other effects leave `T.en` or clear it.
  | disarm | timerFires | tickFires | triggerDisarm | sampleDisarm | reset => cases hon
  | _ => exact absurd (hoff.symm.trans hon) Bool.false_ne_true

theorem enabledFlag_cleared (hon : s.timer.en = true) (hoff : t.timer.en = false) :
    (∃ v, i = .wrSysctl v ∧ v &&& s.cfg.sysctlIrqMask ≠ 0x02#8) ∨
      (i = .tick ∧ s.timer.cnt = 0 ∧ t.irqPend = true) ∨ (i = .wrTimer 0 ∧ t.irqPend = true) ∨
      i = .rdTack ∨ i = .rdIrqstat ∨ i = .reset ∨
      (i = .sample ∧ ReadAcknowledges s.cfg (s.pcm.cur + 1)) ∨
      (∃ v, i = .wrPcmR4 v ∧ ReadAcknowledges s.cfg (s.pcm.ahi ++ s.pcm.alo)) := by
  cases exec_effect h with
  | sysctl v r => exact .inl ⟨v, rfl, of_decide_eq_false hoff⟩
  | tickFires r _ hcnt => exact .inr (.inl ⟨rfl, hcnt, rfl⟩)
  | timerFires r _ => exact .inr (.inr (.inl ⟨rfl, rfl⟩))
  | disarm _ r hi => exact .inr (.inr (.inr (hi.imp_right .inl)))
  | reset => exact .inr (.inr (.inr (.inr (.inr (.inl rfl)))))
  | sampleDisarm _ _ _ _ r _ _ _ _ ha => exact .inr (.inr (.inr (.inr (.inr (.inr (.inl ⟨rfl, ha⟩))))))
  | triggerDisarm v d r _ ha => exact .inr (.inr (.inr (.inr (.inr (.inr (.inr ⟨v, rfl, ha⟩))))))
  | tickCounts x r _ hen => exact absurd (hoff.symm.trans (hen.trans hon)) Bool.false_ne_true
  -- The other effects leave `T.en`.
  | _ => exact absurd (hoff.symm.trans hon) Bool.false_ne_true

theorem requestLatch_set (hoff : s.irqPend = false) (hon : t.irqPend = true) :
    s.timer.en = true ∧ t.timer.en = false ∧ ((i = .tick ∧ s.timer.cnt = 0) ∨ i = .wrTimer 0) := by
  cases exec_effect h with
  | tickFires r hen hcnt => exact ⟨hen, rfl, .inl ⟨rfl, hcnt⟩⟩
  | timerFires r hen => exact ⟨hen, rfl, .inr rfl⟩
  -- The other effects leave IRQ_PEND or clear it.
  | takeIrq | reset => cases hon
  | _ => exact absurd (hoff.symm.trans hon) Bool.false_ne_true

theorem requestLatch_cleared (hon : s.irqPend = true) (hoff : t.irqPend = false) : i = .takeIrq ∨ i = .reset := by
  cases exec_effect h with
  | takeIrq r => exact .inl rfl
  | reset => exact .inr rfl
  -- The other effects leave IRQ_PEND or set it.
  | tickFires | timerFires => cases hoff
  | _ => exact absurd (hoff.symm.trans hon) Bool.false_ne_true

end

/-- Settles O32: the effects that set the flag, and those that clear it. -/
theorem enabledFlagChangesOnlyByTheListedEvents : Obligations.EnabledFlagChangesOnlyByTheListedEvents :=
  fun _ _ _ h => ⟨enabledFlag_set h, enabledFlag_cleared h⟩

/-- Settles O33: the two firings set the latch, the taking and RESET clear it. -/
theorem requestLatchIsSetByFiringAndClearedByTaking : Obligations.RequestLatchIsSetByFiringAndClearedByTaking :=
  fun _ _ _ h => ⟨requestLatch_set h, requestLatch_cleared h⟩

/-- Settles O29: a TICK of a disabled timer counts, which leaves the flag and the latch, by induction on the TICKs. -/
theorem disabledTimerNeverFires : Obligations.DisabledTimerNeverFires := by
  intro n s hoff
  induction n with
  | zero => exact ⟨s, rfl, hoff, rfl⟩
  | succ n ih =>
    obtain ⟨t, ht, hen, hlatch⟩ := ih
    have hquiet : ¬ (t.timer.en = true ∧ t.timer.cnt = 0) := fun hfires =>
      Bool.false_ne_true (hen.symm.trans hfires.1)
    obtain ⟨hsame, -⟩ := timerCount_flags t.timer
    exact ⟨_, (applyTimes_succ_of_next ht).trans (exec_tick_counts hquiet), hsame.trans hen, hlatch⟩

/-! ### The other parts of the state -/

/-- Settles O34: the system-control write and RESET are the effects on `BANK` and `NMI_EN`. -/
theorem bankAndNmiGateChangeOnlyBySystemControl : Obligations.BankAndNmiGateChangeOnlyBySystemControl := by
  intro i s t h hchange
  cases exec_effect h with
  | sysctl v r => exact .inr ⟨v, rfl, rfl, rfl⟩
  | reset => exact .inl rfl
  | _ => exact hchange.elim (absurd rfl) (absurd rfl)

/-- Settles O57: a store is the effect on its memory, and changes the byte it stores alone. -/
theorem memoryChangesOnlyByItsStores : Obligations.MemoryChangesOnlyByItsStores := by
  intro i s t h hreset
  cases exec_effect h with
  | ram a v r =>
    refine ⟨fun b hb => ?_, fun b => absurd rfl⟩
    rw [ramByte_wrRam] at hb ⊢
    obtain rfl : b = a := by_contra fun hba => hb (if_neg hba)
    exact ⟨v, rfl, if_pos rfl⟩
  | vram a v r =>
    refine ⟨fun b => absurd rfl, fun b hb => ?_⟩
    rw [vramByte_wrVram] at hb ⊢
    obtain rfl : b = a := by_contra fun hba => hb (if_neg hba)
    exact ⟨v, rfl, if_pos rfl⟩
  | reset => exact absurd rfl hreset
  | _ => exact ⟨fun b => absurd rfl, fun b => absurd rfl⟩

/-- Settles O58: a write of a channel's own registers is the effect on that channel alone, but for SAMPLE and RESET. -/
theorem soundChannelsChangeOnlyByTheirRegistersAndSample :
    Obligations.SoundChannelsChangeOnlyByTheirRegistersAndSample := by
  intro i s t h hsample hreset
  cases exec_effect h with
  | sq0 _ q r hi _ => exact ⟨fun _ => hi, absurd rfl, absurd rfl, absurd rfl⟩
  | sq1 _ q r hi _ => exact ⟨absurd rfl, fun _ => hi, absurd rfl, absurd rfl⟩
  | noise _ n r hi _ => exact ⟨absurd rfl, absurd rfl, fun _ => hi, absurd rfl⟩
  | pcm _ d r hi _ => exact ⟨absurd rfl, absurd rfl, absurd rfl, fun _ => hi⟩
  | triggerDisarm v d r _ _ =>
    exact ⟨absurd rfl, absurd rfl, absurd rfl, fun _ => ⟨v, .inr (.inr (.inr (.inr rfl)))⟩⟩
  | sample | sampleDisarm => exact absurd rfl hsample
  | reset => exact absurd rfl hreset
  | _ => exact ⟨absurd rfl, absurd rfl, absurd rfl, absurd rfl⟩

end Sys2Proof.Machine
end
